-- ==== Sys2Proof/Word.lean ====
section
/-! DEFINITION. The 32-bit word, the byte, and the exact-to-32-bit reduction of 00_scope.md R11. -/

namespace Sys2Proof

/-- A 32-bit register, code-buffer word or coefficient (R8 COEF_BITS, WORD_BITS). -/
abbrev Word := BitVec 32

/-- One byte lane of a word (20_memory.md R54). -/
abbrev Byte := BitVec 8

/-- R11 `wrap32`: the 32-bit pattern congruent to the exact integer `v` modulo 2^32. -/
def wrap32 (v : Int) : Word := BitVec.ofInt 32 v

/-- R11 `s32`: a 32-bit pattern read as two's complement. -/
abbrev s32 (w : Word) : Int := w.toInt

/-- R11 `zext_32`: a 32-bit pattern read as unsigned. -/
abbrev u32 (w : Word) : Nat := w.toNat

end Sys2Proof
end

