-- ==== Sys2Proof/Config.lean ====
section
/-! DEFINITION. The implementation parameters of 00_scope.md R8, the ID constant, and the free values. -/

namespace Sys2Proof.Config

/-- R8 COEF_BITS: width of every coefficient. `Word` is the bit vector of this width. -/
def coefBits : Nat := 32

/-- R8 WORD_BITS: width of a bit-stream word. `Word` is the bit vector of this width. -/
def wordBits : Nat := 32

/-- R8 MAX_PLANES: the largest nPlanes that the 5-bit field holds directly; the field 0 means one more. -/
def maxPlanes : Nat := 31

/-- R8 MB_CAP: capacity of the macroblock value buffer, in coefficients. -/
def mbCap : Nat := 16384

/-- R8 CODE_WORDS: capacity of the code buffer, in 32-bit words. -/
def codeWords : Nat := 32768

/-- R8 MAX_LEVEL: the largest level count WT_INIT accepts. -/
def maxLevel : Nat := 30

/-- R8 FILTER_SIZE: the shortest row or column that is filtered. -/
def filterSize : Nat := 5

/-- R8 LIN_BLOCK: edge length of the scan's square blocks. -/
def linBlock : Nat := 8

/-- R8 LEN_BITS: width of the codeLen, sigLen and signLen fields. -/
def lenBits : Nat := 15

/-- R8 MAX_CODE_LEN: the largest value of a length field. -/
def maxCodeLen : Nat := 32767

/-- R8 NPLANES_BITS: width of the nPlanes field. -/
def nplanesBits : Nat := 5

/-- R8 TMP_WORDS: size of each encoder temporary, in words. -/
def tmpWords : Nat := mbCap / wordBits

/-- R90 CAPBITS: the number of bit positions of the code buffer. -/
def capBits : Nat := codeWords * wordBits

/-- R22: the constant of the ID register. -/
def idValue : Word := 0x50474607#32

/-- The value `State.reset` gives the OPEN parameter BAND_MEM_WORDS (R8, 92_eei_decisions.md D12).
DESIGN CHOICE, unsafe (log 1): the spec leaves it open; 2 * 257 * 131 is the least value it names as
passing all its vectors. Every state carries its own value in `State.capBand`. -/
def resetBandMemWords : Nat := 67334

/-- Free value (log 5): what the n-th unspecified host read returns (R60, U1). -/
opaque freeRead : Nat → Word

/-- Free value (log 6): MBV word `i` after the n-th unspecified event, an MB_DECODE stream error
(44_mb_decoder.md R210, U2). -/
opaque freeMbv : Nat → Nat → Word

/-- Free value (log 6): flag SF[i] after the n-th unspecified event (R210, U2). -/
opaque freeSf : Nat → Nat → Bool

end Sys2Proof.Config
end

