-- ==== Sys2Proof/Machine/State.lean ====
section
/-! DEFINITION. The machine's state (10_state.md), its stops, and the state after reset (R47). -/

namespace Sys2Proof.Machine

/-- A word array (CB, MBV or an encoder temporary) as (byte address, byte) pairs. Byte `4i + j` is byte lane `j` of
word `i` (20_memory.md R54). Canonical form: addresses strictly rising, no listed byte 0; an unlisted byte reads 0,
the reset contents the spec gives (R47). -/
abbrev Memory := List Host.Cell

/-- What one event on the engine's outside is (R20, R51, R250). -/
inductive BusOp where
  | read (width : Nat) (addr : BitVec 20)               -- a host read of `width` bytes
  | write (width : Nat) (addr : BitVec 20) (v : Word)   -- a host write of `width` bytes
  | reset                                               -- the platform's reset (R250)
deriving DecidableEq, Repr

/-- One event of the engine's outside, not yet made. `early` says that it comes before the engine takes a pending
command (while BUSY = 1); it says nothing when no command is pending (log 2). -/
structure HostEvent where
  early : Bool
  op    : BusOp
deriving DecidableEq, Repr

/-- Where a step stops. -/
inductive Fault where
  /-- Raised by a host access that is misaligned, not 32 bits wide, unmapped, or a write into the MBV window (R52,
  R53, R57). Safe: the spec says the host program has no meaning past it. -/
  | busError
deriving DecidableEq, Repr

/-- Why a command has no meaning in the model. -/
inductive Refusal where
  /-- Raised by `exec` for a command the model gives no meaning yet. No arm raises it. Safe. -/
  | notModelled (mnemonic : String)
deriving DecidableEq, Repr

/-- Everything the spec gives the machine (R20 to R47), and three fields of the model's own (`hostQ`, `busData`,
`freeCtr`). Registers the spec calls live (MBPOS, MAXABS, BANDUSED, STATUS bits 4, 5, 7) are computed when read. -/
structure State where
  /-- CTRL bit 0 (R23). -/
  ieDone : Bool
  /-- CTRL bit 1 (R23). -/
  ieErr : Bool
  /-- CTRL bit 2 (R23). -/
  favorSpeed : Bool
  /-- STATUS bit 0 (R24). -/
  busy : Bool
  /-- STATUS bit 1 (R24). -/
  done : Bool
  /-- STATUS bit 2 (R24). -/
  err : Bool
  /-- STATUS bit 3 (R24). -/
  haz : Bool
  /-- STATUS bit 6 (R24, R42). -/
  geom : Bool
  /-- ERRCODE bits 7:0 (R25). -/
  errcode : BitVec 8
  /-- ERRCMD (R26). -/
  errcmd : Word
  /-- ERRARG (R27). -/
  errarg : Word
  /-- CMD, the last accepted command word (R28). -/
  cmd : Word
  /-- ARG0 (R29). -/
  arg0 : Word
  /-- ARG1 (R29). -/
  arg1 : Word
  /-- ARG2 (R29). -/
  arg2 : Word
  /-- RESULT0 (R30). -/
  result0 : Word
  /-- RESULT1 (R30). -/
  result1 : Word
  /-- RESULT2 (R30). -/
  result2 : Word
  /-- WORDLEN bits 15:0 (R31). -/
  wordlen : BitVec 16
  /-- MBHDR bits 15:0: BSIZE 14:0, TILEEND 15 (R32, R89). -/
  mbhdr : BitVec 16
  /-- NPLANES bits 4:0 (R34). -/
  nplanes : BitVec 5
  /-- The macroblock's fill or read position (R39). -/
  vpos : Nat
  /-- The number of decoded values available (R39). -/
  vlim : Nat
  /-- The running maximum magnitude (R39). -/
  maxAbs : Nat
  /-- GEOM_W, the pyramid's width W (R36, R42). -/
  geomW : Word
  /-- GEOM_H, the pyramid's height H (R36, R42). -/
  geomH : Word
  /-- GEOM_L, the pyramid's level count L (R36, R42). -/
  geomL : BitVec 5
  /-- BAND_MEM_WORDS, the OPEN parameter CAP_BAND reads (R8, R37; log 1). No step changes it. -/
  capBand : Nat
  /-- CB, the code buffer (R38). -/
  cb : Memory
  /-- MBV, the macroblock values, word `i` the pattern of MBV[i] (R39). -/
  mbv : Memory
  /-- SF: the indices whose significance flag is 1, rising (R40). -/
  sf : List Nat
  /-- SIGT (R41). -/
  sigt : Memory
  /-- REFT (R41). -/
  reft : Memory
  /-- SGNT (R41). -/
  sgnt : Memory
  /-- The allocated bands (R42): grid cell `4 * l + code o` and the band's coefficients, cells rising. -/
  bands : List (Nat × List Word)
  /-- The coefficients in use (R42, R114). -/
  used : Nat
  /-- 1 from an accepted CMD write until the engine takes the command (R43). -/
  pending : Bool
  /-- The IE_DONE taken for the command in progress, or for the next one while BUSY = 0: a CTRL write while BUSY = 1 takes
  effect for the next command (R23). A record: the irq level is R233's, by CTRL itself (log 21). -/
  ieDoneTaken : Bool
  /-- The IE_ERR taken for the command in progress (R23; log 21). -/
  ieErrTaken : Bool
  /-- The FAVOR_SPEED taken for the command in progress, which keeps the one of its acceptance (R23, R43; log 20). -/
  favorTaken : Bool
  /-- The model's: the outside's events not yet made, next first (log 2). -/
  hostQ : List HostEvent
  /-- The model's: the read data of the last host read (log 4). -/
  busData : Word
  /-- The model's: how many times a free value was drawn (log 5). -/
  freeCtr : Nat
deriving DecidableEq, Repr

/-- The reset values of R47 for an engine whose BAND_MEM_WORDS is `cap`. -/
def State.resetWith (cap : Nat) : State where
  ieDone := false
  ieErr := false
  favorSpeed := false
  busy := false
  done := false
  err := false
  haz := false
  geom := false
  errcode := 0#8
  errcmd := 0#32
  errarg := 0#32
  cmd := 0#32
  arg0 := 0#32
  arg1 := 0#32
  arg2 := 0#32
  result0 := 0#32
  result1 := 0#32
  result2 := 0#32
  wordlen := 0#16
  mbhdr := 0#16
  nplanes := 0#5
  vpos := 0
  vlim := 0
  maxAbs := 0
  geomW := 0#32
  geomH := 0#32
  geomL := 0#5
  capBand := cap
  cb := []
  mbv := []
  sf := []
  sigt := []
  reft := []
  sgnt := []
  bands := []
  used := 0
  pending := false
  ieDoneTaken := false
  ieErrTaken := false
  favorTaken := false
  hostQ := []
  busData := 0#32
  freeCtr := 0

/-- The machine right after reset (R47, R250, R252). -/
def State.reset : State := State.resetWith Config.resetBandMemWords

end Sys2Proof.Machine
end

