-- ==== Sys2Proof/Machine/Memory.lean ====
section
/-! DEFINITION. Word arrays: byte, word and bit access (20_memory.md R54, R55), the bit primitives of
40_bitstream.md R92 to R97, and the working bit string in which one command builds or reads a whole array. -/

namespace Sys2Proof.Machine

/-- The byte at an address; an unlisted byte reads 0 (R47). -/
def Memory.read : Memory → Nat → Byte
  | [], _ => 0#8
  | (k, v) :: t, a => if k = a then v else Memory.read t a

/-- The canonical cells of consecutive bytes from an address: zero bytes are not listed. -/
def cellsOf : Nat → List Byte → Memory
  | _, [] => []
  | a, b :: t => if b = 0#8 then cellsOf (a + 1) t else (a, b) :: cellsOf (a + 1) t

/-- Store consecutive bytes from an address. -/
def Memory.write (m : Memory) (a : Nat) (bs : List Byte) : Memory :=
  m.filter (fun c => decide (c.1 < a)) ++ cellsOf a bs
    ++ m.filter (fun c => decide (a + bs.length ≤ c.1))

/-- Store `n` zero bytes from an address. -/
def Memory.clear (m : Memory) (a n : Nat) : Memory :=
  m.filter (fun c => decide (c.1 < a) || decide (a + n ≤ c.1))

/-- Addresses from `lo` on, strictly rising, no zero byte listed. -/
def Memory.risingFrom : Nat → Memory → Bool
  | _, [] => true
  | lo, (k, v) :: t => decide (lo ≤ k) && !(v == 0#8) && Memory.risingFrom (k + 1) t

/-- The canonical form of a memory. -/
def Memory.wf (m : Memory) : Bool := Memory.risingFrom 0 m

/-- No byte is listed at or above `n`. -/
def Memory.below (m : Memory) (n : Nat) : Bool := m.all (fun c => decide (c.1 < n))

/-- R54: the four byte lanes of a word, lowest address first. -/
def wordBytes (w : Word) : List Byte :=
  [BitVec.ofNat 8 w.toNat, BitVec.ofNat 8 (w.toNat / 2 ^ 8), BitVec.ofNat 8 (w.toNat / 2 ^ 16),
    BitVec.ofNat 8 (w.toNat / 2 ^ 24)]

/-- R54: word `i` of an array. -/
def Memory.readWord (m : Memory) (i : Nat) : Word :=
  BitVec.ofNat 32 ((m.read (4 * i)).toNat + 2 ^ 8 * (m.read (4 * i + 1)).toNat
    + 2 ^ 16 * (m.read (4 * i + 2)).toNat + 2 ^ 24 * (m.read (4 * i + 3)).toNat)

/-- Store consecutive words from word `i` on. -/
def Memory.writeWords (m : Memory) (i : Nat) (ws : List Word) : Memory :=
  m.write (4 * i) (ws.flatMap wordBytes)

/-- Words `i .. i + n - 1` of an array. -/
def Memory.readWords (m : Memory) (i n : Nat) : List Word :=
  (List.range n).map fun j => m.readWord (i + j)

/-- R92 GetBit on an array: bit `p mod 32` of word `p div 32` (R55), which is bit `p mod 8` of byte `p div 8`. -/
def Memory.getBit (m : Memory) (p : Nat) : Bool := (m.read (p / 8)).getLsbD (p % 8)

/-- R93 SetBit and R94 ClrBit on an array: bit `p` becomes `b`. -/
def Memory.putBit (m : Memory) (p : Nat) (b : Bool) : Memory :=
  m.write (p / 8)
    [if b then m.read (p / 8) ||| (1#8 <<< (p % 8)) else m.read (p / 8) &&& ~~~(1#8 <<< (p % 8))]

/-- R96 SetVal on an array: bit `i` of `v` goes to position `p + i`, for `i` from 0 up to `k - 1`. -/
def Memory.setVal (m : Memory) (p v : Nat) : Nat → Memory
  | 0 => m
  | k + 1 => Memory.setVal (m.putBit p (v.testBit 0)) (p + 1) (v / 2) k

/-- R95 GetVal over a GetBit: the sum of bit `p + i` times 2^i for `i < k`. -/
def getVal (get : Nat → Bool) (p : Nat) : Nat → Nat
  | 0 => 0
  | k + 1 => (get p).toNat + 2 * getVal get (p + 1) k

/-- R97 Seek over a GetBit: how many consecutive bits from `p` equal `b`, capped at `n`. -/
def seek (get : Nat → Bool) (b : Bool) (p : Nat) : Nat → Nat
  | 0 => 0
  | n + 1 => if get p = b then seek get b (p + 1) n + 1 else 0

/-- A word array while one command works on it, as one number: bit position `p` of the array (R55) is bit `p`. -/
abbrev BitString := Nat

/-- R96 SetVal on a bit string: bits `p .. p + k - 1` become the `k` low bits of `v`, no other bit changes. -/
def BitString.setVal (a : BitString) (p v k : Nat) : BitString :=
  a ^^^ (((a >>> p ^^^ v) % 2 ^ k) <<< p)

/-- R93 SetBit and R94 ClrBit on a bit string. -/
def BitString.putBit (a : BitString) (p : Nat) (b : Bool) : BitString := BitString.setVal a p b.toNat 1

/-- R92 GetBit on a bit string. -/
def BitString.getBit (a : BitString) (p : Nat) : Bool := a.testBit p

/-- The bit string of an array. -/
def Memory.toBits (m : Memory) : BitString :=
  m.foldr (fun c acc => acc ||| (c.2.toNat <<< (8 * c.1))) 0

/-- The `n` low bytes of a bit string. -/
def bytesOf : Nat → Nat → List Byte
  | 0, _ => []
  | n + 1, a => BitVec.ofNat 8 a :: bytesOf n (a / 2 ^ 8)

/-- The array of `cap` bytes a bit string stands for, in canonical form. The length is cut to the bytes in use, so
that a short string is read quickly. -/
def Memory.ofBits (cap : Nat) (a : BitString) : Memory :=
  cellsOf 0 (bytesOf (min (a.log2 / 8 + 1) cap) a)

end Sys2Proof.Machine
end

