-- ==== Sys2Proof/Machine/Operands.lean ====
section
/-! DEFINITION. How a command reads its operands (30_encoding.md R73) and the exact arithmetic helpers of
00_scope.md R12 and R15. -/

namespace Sys2Proof.Machine

/-- R73 "u" of ARG0: read as unsigned. -/
def State.u0 (s : State) : Nat := u32 s.arg0

/-- R73 "u" of ARG1: read as unsigned. -/
def State.u1 (s : State) : Nat := u32 s.arg1

/-- R73 "u" of ARG2: read as unsigned. -/
def State.u2 (s : State) : Nat := u32 s.arg2

/-- R12 `asr`: the floor of v / 2^s. -/
def asr (v : Int) (s : Nat) : Int := v / 2 ^ s

/-- R12 `abs` of a coefficient, exact: the magnitude of -2^31 is 2^31. -/
def absCoef (w : Word) : Nat := (s32 w).natAbs

/-- R15 AlignWordPos: the first word-aligned position at or after `p`, wrapped to 32 bits (R106). -/
def alignWordPos (p : Nat) : Nat := (p + 31) / 32 * 32 % 2 ^ 32

/-- R15 NumberOfWords: the words that hold `p` bits, with the 32-bit wrap (R107). -/
def numberOfWords (p : Nat) : Nat := (p + 31) % 2 ^ 32 / 32

/-- R15 `bitlen`: the number of bits of the binary form of `u` > 0. -/
def bitlen (u : Nat) : Nat := u.log2 + 1

/-- A natural number as a 32-bit register value: `wrap32` of it (R11). -/
def reg32 (n : Nat) : Word := BitVec.ofNat 32 n

end Sys2Proof.Machine
end

