-- ==== Sys2Proof/Machine/Flags.lean ====
section
/-! DEFINITION. The live flags and the STATUS, CTRL and MBPOS words (10_state.md R23, R24, R33, R46; 60_exceptions.md
R233). -/

namespace Sys2Proof.Machine

/-- R24 STATUS.MBFULL: 1 exactly when VPOS = MB_CAP. -/
def State.mbFull (s : State) : Bool := decide (s.vpos = Config.mbCap)

/-- R24 STATUS.MBEMPTY: 1 exactly when VPOS ≥ VLIM. -/
def State.mbEmpty (s : State) : Bool := decide (s.vlim ≤ s.vpos)

/-- R233: the level of the irq output, by CTRL's enables in every state (log 21). -/
def State.irq (s : State) : Bool := (s.done && s.ieDone) || (s.err && s.ieErr)

/-- R24: the STATUS word. -/
def State.statusWord (s : State) : Word :=
  reg32 (s.busy.toNat + 2 * s.done.toNat + 4 * s.err.toNat + 8 * s.haz.toNat + 16 * s.mbFull.toNat
    + 32 * s.mbEmpty.toNat + 64 * s.geom.toNat + 128 * s.irq.toNat)

/-- R23: the CTRL word; SOFT_RESET and the reserved bits read 0. -/
def State.ctrlWord (s : State) : Word :=
  reg32 (s.ieDone.toNat + 2 * s.ieErr.toNat + 4 * s.favorSpeed.toNat)

/-- R33: the MBPOS word, VPOS in 15:0 and VLIM in 31:16. -/
def State.mbposWord (s : State) : Word := reg32 (s.vpos % 2 ^ 16 + 2 ^ 16 * (s.vlim % 2 ^ 16))

end Sys2Proof.Machine
end

