-- ==== Sys2Proof/Syntax.lean ====
section
/-! DEFINITION. The command set: one constructor per row of 30_encoding.md R74. -/

namespace Sys2Proof

/-- 00_scope.md R17: the orientation of a subband; first letter the row filter, second the column filter. -/
inductive Orient where
  | ll | hl | lh | hh
deriving DecidableEq, Repr

/-- R17: the orientation codes LL = 0, HL = 1, LH = 2, HH = 3. -/
def Orient.code : Orient → Nat
  | .ll => 0 | .hl => 1 | .lh => 2 | .hh => 3

/-- The 28 commands (R74). `lvl` is the LVL field, `k` the K field, both read as unsigned (R72). -/
inductive Instr where
  | nop
  | bsSetbit
  | bsClrbit
  | bsGetbit
  | bsSetval (k : Nat)
  | bsGetval (k : Nat)
  | bsCmpval (k : Nat)
  | bsSeek0
  | bsSeek1
  | bsAlign
  | bsNwords
  | sbAlloc (lvl : Nat) (o : Orient)
  | sbFree (lvl : Nat) (o : Orient)
  | sbWr (lvl : Nat) (o : Orient)
  | sbRd (lvl : Nat) (o : Orient)
  | sbQuant (lvl : Nat) (o : Orient)
  | sbDequant (lvl : Nat) (o : Orient)
  | sbExtract (lvl : Nat) (o : Orient)
  | sbPlace (lvl : Nat) (o : Orient)
  | sbInfo (lvl : Nat) (o : Orient)
  | wtInit
  | wtFwd (lvl : Nat)
  | wtInv (lvl : Nat)
  | mbClear
  | mbPut
  | mbGet
  | mbEncode (pad tileEnd : Bool)
  | mbDecode
deriving DecidableEq, Repr

end Sys2Proof
end

