-- ==== Sys2Proof/Machine/Ops.lean ====
section
/-! DEFINITION. The operations the commands share: errors and completion (60_exceptions.md R220 to R230), checks in
order (R224), reset (70_reset_and_hazards.md R250, R251), and the subband store (41_subband.md R110 to R114). -/

namespace Sys2Proof.Machine

/-- The error names of R221. -/
inductive ErrCode where
  | insufficientMemory
  | missingData
  | formatCannotRead
  | illegalCommand
  | badOperand
  | notAllocated
  | notInitialised
  | mbOverflow
  | mbUnderflow
deriving DecidableEq, Repr

/-- R221: the ERRCODE value of an error. -/
def ErrCode.code : ErrCode → BitVec 8
  | .insufficientMemory => 0x01#8
  | .missingData => 0x02#8
  | .formatCannotRead => 0x03#8
  | .illegalCommand => 0x10#8
  | .badOperand => 0x11#8
  | .notAllocated => 0x12#8
  | .notInitialised => 0x13#8
  | .mbOverflow => 0x14#8
  | .mbUnderflow => 0x15#8

/-- An error and its detail value: `raise code(info)` of R13. -/
structure Err where
  code : ErrCode
  info : Nat
deriving DecidableEq, Repr

/-- R23: the three enables of CTRL are taken for the command to come. -/
def takeCtrl (s : State) : State :=
  { s with ieDoneTaken := s.ieDone, ieErrTaken := s.ieErr, favorTaken := s.favorSpeed }

/-- R28, R43: an accepted CMD write. The command is the next one for which CTRL takes effect (R23). -/
def acceptCmd (w : Word) (s : State) : State := takeCtrl { s with cmd := w, busy := true, pending := true }

/-- R226: the completion actions of every accepted command. -/
def complete (s : State) : State := { s with busy := false, done := true, pending := false }

/-- R222: `raise e` records the error, then completes. This is the engine's only "exception": R234 says that an error
saves ERRCODE, ERRCMD and ERRARG and nothing else, and that control goes nowhere. -/
def raiseErr (e : Err) (s : State) : State :=
  complete { s with errcode := e.code.code, errcmd := s.cmd, errarg := reg32 e.info, err := true }

/-- R235, R227: the acknowledgement, W1C of STATUS.ERR, is what stands for the return from an error. -/
def acknowledgeErr (s : State) : State :=
  { s with err := false, errcode := 0#8, errcmd := 0#32, errarg := 0#32 }

/-- One check of a command rule: if `ok` is false the command raises `err`. -/
structure Check where
  ok  : Bool
  err : Err
deriving DecidableEq, Repr

/-- R224: the first failing check, in the order the rule lists them. -/
def firstFail : List Check → Option Err
  | [] => none
  | c :: t => if c.ok then firstFail t else some c.err

/-- A command whose every error is raised before any write (R230): its checks in order, then its effect, then
completion. -/
def command (checks : List Check) (effect : State → State) (s : State) : Host.Outcome State Fault Refusal :=
  match firstFail checks with
  | some e => .next (raiseErr e s)
  | none => .next (complete (effect s))

/-- R250, R251: both resets set every piece of the engine's state. BAND_MEM_WORDS is a constant of the engine (R37),
and the outside's events, its read data and the free-value counter are no state of the engine. -/
def resetEngine (s : State) : State :=
  { State.resetWith s.capBand with hostQ := s.hostQ, busData := s.busData, freeCtr := s.freeCtr }

/-! ## Geometry (R111) -/

/-- R111 `llw` and `llh`: the LL size of level `l` along one axis, from the image's size. -/
def llDim (d : Nat) : Nat → Nat
  | 0 => d
  | l + 1 => (llDim d l + 1) / 2

/-- R111: the size of band `(l, ·)` along one axis, low-pass (ceiling) or high-pass (floor). -/
def bandDim (d l : Nat) (lowPass : Bool) : Nat :=
  match l with
  | 0 => d
  | l + 1 => if lowPass then (llDim d l + 1) / 2 else llDim d l / 2

/-- R17, R111: the row filter of an orientation is low-pass. -/
def lowAlongRow : Orient → Bool
  | .ll => true | .hl => false | .lh => true | .hh => false

/-- R17, R111: the column filter of an orientation is low-pass. -/
def lowAlongColumn : Orient → Bool
  | .ll => true | .hl => true | .lh => false | .hh => false

/-- L, the level count of the pyramid (R42). -/
def State.levels (s : State) : Nat := s.geomL.toNat

/-- R111 `bw(l,o)`. -/
def State.bw (s : State) (l : Nat) (o : Orient) : Nat := bandDim (u32 s.geomW) l (lowAlongRow o)

/-- R111 `bh(l,o)`. -/
def State.bh (s : State) (l : Nat) (o : Orient) : Nat := bandDim (u32 s.geomH) l (lowAlongColumn o)

/-- `bw * bh`, the number of coefficients of a band (R113). -/
def State.bandSize (s : State) (l : Nat) (o : Orient) : Nat := s.bw l o * s.bh l o

/-! ## The store (R112 to R114) -/

/-- The cell of band `(l, o)` in the (L+1) x 4 grid (R42). -/
def bandCell (l : Nat) (o : Orient) : Nat := 4 * l + o.code

/-- The coefficients of an allocated band. -/
def findBand : List (Nat × List Word) → Nat → Option (List Word)
  | [], _ => none
  | (k, cs) :: t, c => if k = c then some cs else findBand t c

/-- R112 `alloc(l,o)`. -/
def State.alloc (s : State) (l : Nat) (o : Orient) : Bool := (findBand s.bands (bandCell l o)).isSome

/-- `BAND(l,o)`, the coefficients in row-major order (R113). -/
def State.coefs (s : State) (l : Nat) (o : Orient) : List Word := (findBand s.bands (bandCell l o)).getD []

/-- `BAND(l,o)[i]` (R113). -/
def State.coef (s : State) (l : Nat) (o : Orient) (i : Nat) : Word := (s.coefs l o).getD i 0#32

/-- Replace or add the coefficients of a cell, cells rising. -/
def putBand (bs : List (Nat × List Word)) (c : Nat) (cs : List Word) : List (Nat × List Word) :=
  bs.filter (fun b => decide (b.1 < c)) ++ (c, cs) :: bs.filter (fun b => decide (c < b.1))

/-- Discard the coefficients of a cell. -/
def dropBand (bs : List (Nat × List Word)) (c : Nat) : List (Nat × List Word) :=
  bs.filter (fun b => decide (b.1 ≠ c))

/-- `BAND(l,o) <- cs` for the whole band, allocating it if it is not (R114: `used` grows by the band's size). -/
def storeBand (l : Nat) (o : Orient) (cs : List Word) (s : State) : State :=
  { s with
    bands := putBand s.bands (bandCell l o) cs
    used := if s.alloc l o then s.used else s.used + s.bandSize l o }

/-- R112, R114: free a band; a band that is not allocated stays so. -/
def freeBand (l : Nat) (o : Orient) (s : State) : State :=
  { s with
    bands := dropBand s.bands (bandCell l o)
    used := if s.alloc l o then s.used - s.bandSize l o else s.used }

/-- The four orientations in the order of their codes. -/
def orients : List Orient := [.ll, .hl, .lh, .hh]

/-! ## Checks shared by the SB and WT commands -/

/-- R110.1: STATUS.GEOM = 1, else NOT_INITIALISED(0). -/
def checkGeom (s : State) : Check := ⟨s.geom, ⟨.notInitialised, 0⟩⟩

/-- R110: the checks every SB command makes first. -/
def bandChecks (s : State) (l : Nat) (o : Orient) : List Check :=
  [checkGeom s,
   ⟨decide (l ≤ s.levels), ⟨.badOperand, l⟩⟩,
   ⟨decide (l ≠ 0) || decide (o = .ll), ⟨.badOperand, l⟩⟩]

/-- `alloc(l,o) = 1`, else NOT_ALLOCATED(l) (R112). -/
def checkAlloc (s : State) (l : Nat) (o : Orient) : Check := ⟨s.alloc l o, ⟨.notAllocated, l⟩⟩

/-- R123: q ≤ 31, else BAD_OPERAND(q). -/
def checkQ (q : Nat) : Check := ⟨decide (q ≤ 31), ⟨.badOperand, q⟩⟩

/-- R114: room for `need` more coefficients, else INSUFFICIENT_MEMORY(need). -/
def checkRoom (s : State) (need : Nat) : Check :=
  ⟨decide (s.used + need ≤ s.capBand), ⟨.insufficientMemory, need⟩⟩

/-- R114: band `(l, o)` is allocated already or there is room for it, else INSUFFICIENT_MEMORY(bw*bh). -/
def checkRoomFor (s : State) (l : Nat) (o : Orient) : Check :=
  ⟨s.alloc l o || (checkRoom s (s.bandSize l o)).ok, ⟨.insufficientMemory, s.bandSize l o⟩⟩

/-- The coefficients a command must add to the store for band `(l, o)`: none if it is allocated (R114). -/
def State.needFor (s : State) (l : Nat) (o : Orient) : Nat := if s.alloc l o then 0 else s.bandSize l o

end Sys2Proof.Machine
end

