-- ==== Sys2Proof/Machine/Bus.lean ====
section
/-! DEFINITION. The host bus: the address map (20_memory.md R51 to R53), the register page (10_state.md R21 to R37, R48),
and what each host access does, while the engine is idle and while it is busy (R60). -/

namespace Sys2Proof.Machine

/-- The registers of the page (R21). -/
inductive Reg where
  | id | ctrl | status | errcode | errcmd | errarg | cmd | arg0 | arg1 | arg2 | result0 | result1 | result2
  | wordlen | mbhdr | mbpos | nplanes | maxabs | geomW | geomH | geomL | bandused | capMb | capCb | capBand
deriving DecidableEq, Repr

/-- R21: the register at a byte offset of the page; the other offsets name none. -/
def regAt : Nat → Option Reg
  | 0x000 => some .id
  | 0x004 => some .ctrl
  | 0x008 => some .status
  | 0x00C => some .errcode
  | 0x010 => some .errcmd
  | 0x014 => some .errarg
  | 0x018 => some .cmd
  | 0x01C => some .arg0
  | 0x020 => some .arg1
  | 0x024 => some .arg2
  | 0x028 => some .result0
  | 0x02C => some .result1
  | 0x030 => some .result2
  | 0x034 => some .wordlen
  | 0x038 => some .mbhdr
  | 0x03C => some .mbpos
  | 0x040 => some .nplanes
  | 0x044 => some .maxabs
  | 0x048 => some .geomW
  | 0x04C => some .geomH
  | 0x050 => some .geomL
  | 0x054 => some .bandused
  | 0x058 => some .capMb
  | 0x05C => some .capCb
  | 0x060 => some .capBand
  | _ => none

/-- What a host address names (R51). -/
inductive Target where
  | reg (r : Reg)     -- a register of the page
  | hole              -- an offset of the page that names no register (R48)
  | mbv (i : Nat)     -- word i of the MBV window
  | cb (i : Nat)      -- word i of the CB window
  | unmapped
deriving DecidableEq, Repr

/-- R51: the host bus address map, for a 4-byte-aligned address. -/
def targetAt (a : Nat) : Target :=
  if a < 0x01000 then
    match regAt a with
    | some r => .reg r
    | none => .hole
  else if 0x20000 ≤ a ∧ a < 0x20000 + 4 * Config.mbCap then .mbv ((a - 0x20000) / 4)
  else if 0x40000 ≤ a ∧ a < 0x40000 + 4 * Config.codeWords then .cb ((a - 0x40000) / 4)
  else .unmapped

/-- R52: an access is legal when it is one 4-byte-aligned 32-bit word. -/
def accessLegal (width a : Nat) : Bool := decide (width = 4) && decide (a % 4 = 0)

/-- R21 to R37: what a read of a register returns when its value is specified. -/
def readReg (s : State) : Reg → Word
  | .id => Config.idValue
  | .ctrl => s.ctrlWord
  | .status => s.statusWord
  | .errcode => reg32 s.errcode.toNat
  | .errcmd => s.errcmd
  | .errarg => s.errarg
  | .cmd => s.cmd
  | .arg0 => s.arg0
  | .arg1 => s.arg1
  | .arg2 => s.arg2
  | .result0 => s.result0
  | .result1 => s.result1
  | .result2 => s.result2
  | .wordlen => reg32 s.wordlen.toNat
  | .mbhdr => reg32 s.mbhdr.toNat
  | .mbpos => s.mbposWord
  | .nplanes => reg32 s.nplanes.toNat
  | .maxabs => reg32 s.maxAbs
  | .geomW => s.geomW
  | .geomH => s.geomH
  | .geomL => reg32 s.geomL.toNat
  | .bandused => reg32 s.used
  | .capMb => reg32 Config.mbCap
  | .capCb => reg32 Config.codeWords
  | .capBand => reg32 s.capBand

/-- R60: the bits of a register whose read value is unspecified while BUSY = 1. CMD and ARG0 to ARG2 are in neither of
R60's lists; they keep their values, which R28 and R29 state without reserve (log 8). -/
def busyUnspecified : Reg → Word
  | .id => 0#32
  | .ctrl => 0#32
  | .status => 0x30#32
  | .errcode => 0xFFFFFFFF#32
  | .errcmd => 0xFFFFFFFF#32
  | .errarg => 0xFFFFFFFF#32
  | .cmd => 0#32
  | .arg0 => 0#32
  | .arg1 => 0#32
  | .arg2 => 0#32
  | .result0 => 0xFFFFFFFF#32
  | .result1 => 0xFFFFFFFF#32
  | .result2 => 0xFFFFFFFF#32
  | .wordlen => 0xFFFFFFFF#32
  | .mbhdr => 0xFFFFFFFF#32
  | .mbpos => 0xFFFFFFFF#32
  | .nplanes => 0xFFFFFFFF#32
  | .maxabs => 0xFFFFFFFF#32
  | .geomW => 0xFFFFFFFF#32
  | .geomH => 0xFFFFFFFF#32
  | .geomL => 0xFFFFFFFF#32
  | .bandused => 0xFFFFFFFF#32
  | .capMb => 0#32
  | .capCb => 0#32
  | .capBand => 0#32

/-- Deliver read data to the host (R59: a read changes nothing of the engine). -/
def deliver (v : Word) (s : State) : State := { s with busData := v }

/-- Deliver read data whose bits in `mask` are unspecified: those bits come from a free value (log 5). With an empty
mask no free value is drawn. -/
def deliverFree (mask v : Word) (s : State) : State :=
  if mask = 0#32 then deliver v s
  else { s with busData := (v &&& ~~~mask) ||| (Config.freeRead s.freeCtr &&& mask), freeCtr := s.freeCtr + 1 }

/-- The bits a read leaves unspecified: those of R60's second list while BUSY = 1, none otherwise. -/
def openBits (s : State) (mask : Word) : Word := if s.busy then mask else 0#32

/-- HR: one host read (R52, R53, R57, R59, R60). -/
def hostRead (width : Nat) (addr : BitVec 20) (s : State) : Host.Outcome State Fault Refusal :=
  if accessLegal width addr.toNat then
    match targetAt addr.toNat with
    | .reg r => .next (deliverFree (openBits s (busyUnspecified r)) (readReg s r) s)
    | .hole => .next (deliver 0#32 s)
    | .mbv i => .next (deliverFree (openBits s 0xFFFFFFFF#32) (s.mbv.readWord i) s)
    | .cb i => .next (deliverFree (openBits s 0xFFFFFFFF#32) (s.cb.readWord i) s)
    | .unmapped => .fault .busError
  else .fault .busError

/-- R231: a refused host write sets HAZ and changes nothing else. -/
def hazard (s : State) : State := { s with haz := true }

/-- R60: a write that is refused while BUSY = 1. -/
def writeIfIdle (f : State → State) (s : State) : State := if s.busy then hazard s else f s

/-- R23: CTRL takes the three enables of a written value. -/
def setCtrl (v : Word) (s : State) : State :=
  { s with ieDone := v.getLsbD 0, ieErr := v.getLsbD 1, favorSpeed := v.getLsbD 2 }

/-- R23, R251: a CTRL write; bit 3 resets the engine and discards the rest of the value. CTRL holds the
enables at once, and the irq level with it (R233). They are taken for the next command: at this write while BUSY = 0, at
the acceptance of the next command while BUSY = 1. -/
def writeCtrl (v : Word) (s : State) : State :=
  if v.getLsbD 3 then resetEngine s
  else if s.busy then setCtrl v s
  else takeCtrl (setCtrl v s)

/-- R24, R227: the W1C bits DONE, ERR and HAZ; clearing ERR clears the error registers. -/
def writeStatus (v : Word) (s : State) : State :=
  let s1 := if v.getLsbD 1 then { s with done := false } else s
  let s2 := if v.getLsbD 2 then acknowledgeErr s1 else s1
  if v.getLsbD 3 then { s2 with haz := false } else s2

/-- R28: a CMD write is accepted when BUSY = 0 and ERR = 0, else refused. -/
def writeCmd (v : Word) (s : State) : State :=
  if s.busy || s.err then hazard s else acceptCmd v s

/-- R21 to R37, R48, R60: a write of a register. A read-only register ignores it. -/
def writeReg (v : Word) (s : State) : Reg → State
  | .id => s
  | .ctrl => writeCtrl v s
  | .status => writeStatus v s
  | .errcode => s
  | .errcmd => s
  | .errarg => s
  | .cmd => writeCmd v s
  | .arg0 => writeIfIdle (fun t => { t with arg0 := v }) s
  | .arg1 => writeIfIdle (fun t => { t with arg1 := v }) s
  | .arg2 => writeIfIdle (fun t => { t with arg2 := v }) s
  | .result0 => s
  | .result1 => s
  | .result2 => s
  | .wordlen => writeIfIdle (fun t => { t with wordlen := BitVec.ofNat 16 v.toNat }) s
  | .mbhdr => writeIfIdle (fun t => { t with mbhdr := BitVec.ofNat 16 v.toNat }) s
  | .mbpos => s
  | .nplanes => s
  | .maxabs => s
  | .geomW => s
  | .geomH => s
  | .geomL => s
  | .bandused => s
  | .capMb => s
  | .capCb => s
  | .capBand => s

/-- HW: one host write (R52, R53, R57, R59, R60). -/
def hostWrite (width : Nat) (addr : BitVec 20) (v : Word) (s : State) : Host.Outcome State Fault Refusal :=
  if accessLegal width addr.toNat then
    match targetAt addr.toNat with
    | .reg r => .next (writeReg v s r)
    | .hole => .next s
    | .mbv _ => .fault .busError
    | .cb i => .next (writeIfIdle (fun t => { t with cb := t.cb.writeWords i [v] }) s)
    | .unmapped => .fault .busError
  else .fault .busError

/-- One event of the engine's outside (R20, R250). -/
def busEvent (op : BusOp) (s : State) : Host.Outcome State Fault Refusal :=
  match op with
  | .read width addr => hostRead width addr s
  | .write width addr v => hostWrite width addr v s
  | .reset => .next (resetEngine s)

/-- The next event of the outside, or idling when there is none (R243: idle state keeps every value). -/
def hostTurn (s : State) : Host.Outcome State Fault Refusal :=
  match s.hostQ with
  | [] => .next s
  | e :: rest => busEvent e.op { s with hostQ := rest }

/-- Whether the engine moves next: a command is pending, and the next event is not one the host makes while BUSY = 1
(R43, R60, R61; log 2). -/
def engineTurn (s : State) : Bool :=
  s.pending &&
    (match s.hostQ with
     | [] => true
     | e :: _ => !e.early)

end Sys2Proof.Machine
end

