-- ==== Sys2Proof/WellFormed.lean ====
section
/-! DEFINITION. Which commands a command word can hold: every field fits its width (30_encoding.md R71). -/

namespace Sys2Proof

/-- R71: LVL is 5 bits wide. -/
def levelFits (lvl : Nat) : Bool := decide (lvl < 32)

/-- R71: K is 6 bits wide. A K of 0 or above 32 is encodable (R72); R77 makes it a value error of the command. -/
def countFits (k : Nat) : Bool := decide (k < 64)

/-- Every field of the command fits its width. -/
def Instr.wellFormed : Instr → Bool
  | .nop => true
  | .bsSetbit => true
  | .bsClrbit => true
  | .bsGetbit => true
  | .bsSetval k => countFits k
  | .bsGetval k => countFits k
  | .bsCmpval k => countFits k
  | .bsSeek0 => true
  | .bsSeek1 => true
  | .bsAlign => true
  | .bsNwords => true
  | .sbAlloc lvl _ => levelFits lvl
  | .sbFree lvl _ => levelFits lvl
  | .sbWr lvl _ => levelFits lvl
  | .sbRd lvl _ => levelFits lvl
  | .sbQuant lvl _ => levelFits lvl
  | .sbDequant lvl _ => levelFits lvl
  | .sbExtract lvl _ => levelFits lvl
  | .sbPlace lvl _ => levelFits lvl
  | .sbInfo lvl _ => levelFits lvl
  | .wtInit => true
  | .wtFwd lvl => levelFits lvl
  | .wtInv lvl => levelFits lvl
  | .mbClear => true
  | .mbPut => true
  | .mbGet => true
  | .mbEncode _ _ => true
  | .mbDecode => true

/-- The command fits a command word. -/
abbrev Instr.WellFormed (i : Instr) : Prop := i.wellFormed = true

end Sys2Proof
end

