-- ==== Sys2Proof/Decode.lean ====
section
/-! DEFINITION. The command word: its fields (30_encoding.md R71, R72), the decoder (R75, R76) and the encoder
(R71, R74, R80). -/

namespace Sys2Proof

/-- The fields of a command word, each read as unsigned (R72). -/
structure Fields where
  op  : Nat
  lvl : Nat
  or  : Nat
  f1  : Nat
  f2  : Nat
  k   : Nat
  rsv : Nat
deriving DecidableEq, Repr

/-- The bits `lo + width - 1 .. lo` of a word, zero-extended (00_scope.md R10). -/
def bitField (w : Word) (lo width : Nat) : Nat := w.toNat / 2 ^ lo % 2 ^ width

/-- R71, R72: the fields of a command word. -/
def fieldsOf (w : Word) : Fields where
  op  := bitField w 0 8
  lvl := bitField w 8 5
  or  := bitField w 13 2
  f1  := bitField w 15 1
  f2  := bitField w 16 1
  k   := bitField w 17 6
  rsv := bitField w 23 9

/-- Why a word is no command. All three raise ILLEGAL_COMMAND(0) (R75, R76). -/
inductive DecodeError where
  | unassignedOpcode   -- R76: no row of R74 has this OP
  | reservedBits       -- R76: RSV is not 0
  | unusedField        -- R76: a field the command does not use is not 0
deriving DecidableEq, Repr

/-- The orientation a 2-bit code names (R17). -/
def orientOf : Nat → Orient
  | 0 => .ll
  | 1 => .hl
  | 2 => .lh
  | _ => .hh

/-- A command that uses no field (format CMD). -/
def decodePlain (f : Fields) (i : Instr) : Except DecodeError Instr :=
  if f.lvl = 0 ∧ f.or = 0 ∧ f.f1 = 0 ∧ f.f2 = 0 ∧ f.k = 0 then .ok i else .error .unusedField

/-- A command that uses K only (format CMD-K). -/
def decodeK (f : Fields) (mk : Nat → Instr) : Except DecodeError Instr :=
  if f.lvl = 0 ∧ f.or = 0 ∧ f.f1 = 0 ∧ f.f2 = 0 then .ok (mk f.k) else .error .unusedField

/-- A command that uses LVL and OR (format CMD-LVL-OR). -/
def decodeBand (f : Fields) (mk : Nat → Orient → Instr) : Except DecodeError Instr :=
  if f.f1 = 0 ∧ f.f2 = 0 ∧ f.k = 0 then .ok (mk f.lvl (orientOf f.or)) else .error .unusedField

/-- A command that uses LVL only (format CMD-LVL). -/
def decodeLevel (f : Fields) (mk : Nat → Instr) : Except DecodeError Instr :=
  if f.or = 0 ∧ f.f1 = 0 ∧ f.f2 = 0 ∧ f.k = 0 then .ok (mk f.lvl) else .error .unusedField

/-- A command that uses F1 and F2 (format CMD-F1-F2). -/
def decodeFlags (f : Fields) (mk : Bool → Bool → Instr) : Except DecodeError Instr :=
  if f.lvl = 0 ∧ f.or = 0 ∧ f.k = 0 then .ok (mk (f.f1 == 1) (f.f2 == 1)) else .error .unusedField

/-- R74: the row an opcode names, applied to the word's fields. -/
def decodeRow (f : Fields) : Except DecodeError Instr :=
  match f.op with
  | 0x00 => decodePlain f .nop
  | 0x01 => decodePlain f .bsSetbit
  | 0x02 => decodePlain f .bsClrbit
  | 0x03 => decodePlain f .bsGetbit
  | 0x04 => decodeK f .bsSetval
  | 0x05 => decodeK f .bsGetval
  | 0x06 => decodeK f .bsCmpval
  | 0x07 => decodePlain f .bsSeek0
  | 0x08 => decodePlain f .bsSeek1
  | 0x09 => decodePlain f .bsAlign
  | 0x0A => decodePlain f .bsNwords
  | 0x11 => decodeBand f .sbAlloc
  | 0x12 => decodeBand f .sbFree
  | 0x13 => decodeBand f .sbWr
  | 0x14 => decodeBand f .sbRd
  | 0x15 => decodeBand f .sbQuant
  | 0x16 => decodeBand f .sbDequant
  | 0x17 => decodeBand f .sbExtract
  | 0x18 => decodeBand f .sbPlace
  | 0x19 => decodeBand f .sbInfo
  | 0x20 => decodePlain f .wtInit
  | 0x21 => decodeLevel f .wtFwd
  | 0x22 => decodeLevel f .wtInv
  | 0x30 => decodePlain f .mbClear
  | 0x31 => decodePlain f .mbPut
  | 0x32 => decodePlain f .mbGet
  | 0x33 => decodeFlags f .mbEncode
  | 0x34 => decodePlain f .mbDecode
  | _ => .error .unassignedOpcode

/-- R75: the command a word names, or the name of the reason it names none. R75's test
`(cmd AND NOT usedMask) != 0` says the same as: RSV and every field the row does not use are 0. -/
def decode (w : Word) : Except DecodeError Instr :=
  if (fieldsOf w).rsv = 0 then decodeRow (fieldsOf w) else .error .reservedBits

/-- The (mask, match) word pairs of opcode_table.json, in the table's order (R74). R75's equivalent test says that a word
names a row when its bits under the row's mask are the row's match word. -/
def legalPatterns : List (Word × Word) := [
  (0xFFFFFFFF#32, 0x00000000#32),  -- NOP
  (0xFFFFFFFF#32, 0x00000001#32),  -- BS_SETBIT
  (0xFFFFFFFF#32, 0x00000002#32),  -- BS_CLRBIT
  (0xFFFFFFFF#32, 0x00000003#32),  -- BS_GETBIT
  (0xFF81FFFF#32, 0x00000004#32),  -- BS_SETVAL
  (0xFF81FFFF#32, 0x00000005#32),  -- BS_GETVAL
  (0xFF81FFFF#32, 0x00000006#32),  -- BS_CMPVAL
  (0xFFFFFFFF#32, 0x00000007#32),  -- BS_SEEK0
  (0xFFFFFFFF#32, 0x00000008#32),  -- BS_SEEK1
  (0xFFFFFFFF#32, 0x00000009#32),  -- BS_ALIGN
  (0xFFFFFFFF#32, 0x0000000A#32),  -- BS_NWORDS
  (0xFFFF80FF#32, 0x00000011#32),  -- SB_ALLOC
  (0xFFFF80FF#32, 0x00000012#32),  -- SB_FREE
  (0xFFFF80FF#32, 0x00000013#32),  -- SB_WR
  (0xFFFF80FF#32, 0x00000014#32),  -- SB_RD
  (0xFFFF80FF#32, 0x00000015#32),  -- SB_QUANT
  (0xFFFF80FF#32, 0x00000016#32),  -- SB_DEQUANT
  (0xFFFF80FF#32, 0x00000017#32),  -- SB_EXTRACT
  (0xFFFF80FF#32, 0x00000018#32),  -- SB_PLACE
  (0xFFFF80FF#32, 0x00000019#32),  -- SB_INFO
  (0xFFFFFFFF#32, 0x00000020#32),  -- WT_INIT
  (0xFFFFE0FF#32, 0x00000021#32),  -- WT_FWD
  (0xFFFFE0FF#32, 0x00000022#32),  -- WT_INV
  (0xFFFFFFFF#32, 0x00000030#32),  -- MB_CLEAR
  (0xFFFFFFFF#32, 0x00000031#32),  -- MB_PUT
  (0xFFFFFFFF#32, 0x00000032#32),  -- MB_GET
  (0xFFFE7FFF#32, 0x00000033#32),  -- MB_ENCODE
  (0xFFFFFFFF#32, 0x00000034#32)]  -- MB_DECODE

/-- R74: the opcode of a command. -/
def Instr.opcode : Instr → Nat
  | .nop => 0x00
  | .bsSetbit => 0x01
  | .bsClrbit => 0x02
  | .bsGetbit => 0x03
  | .bsSetval _ => 0x04
  | .bsGetval _ => 0x05
  | .bsCmpval _ => 0x06
  | .bsSeek0 => 0x07
  | .bsSeek1 => 0x08
  | .bsAlign => 0x09
  | .bsNwords => 0x0A
  | .sbAlloc _ _ => 0x11
  | .sbFree _ _ => 0x12
  | .sbWr _ _ => 0x13
  | .sbRd _ _ => 0x14
  | .sbQuant _ _ => 0x15
  | .sbDequant _ _ => 0x16
  | .sbExtract _ _ => 0x17
  | .sbPlace _ _ => 0x18
  | .sbInfo _ _ => 0x19
  | .wtInit => 0x20
  | .wtFwd _ => 0x21
  | .wtInv _ => 0x22
  | .mbClear => 0x30
  | .mbPut => 0x31
  | .mbGet => 0x32
  | .mbEncode _ _ => 0x33
  | .mbDecode => 0x34

/-- R71, R80: the field part of a command's word, `LVL<<8 | OR<<13 | F1<<15 | F2<<16 | K<<17`. -/
def Instr.fieldBits : Instr → Nat
  | .nop => 0
  | .bsSetbit => 0
  | .bsClrbit => 0
  | .bsGetbit => 0
  | .bsSetval k => k * 2 ^ 17
  | .bsGetval k => k * 2 ^ 17
  | .bsCmpval k => k * 2 ^ 17
  | .bsSeek0 => 0
  | .bsSeek1 => 0
  | .bsAlign => 0
  | .bsNwords => 0
  | .sbAlloc lvl o => lvl * 2 ^ 8 + o.code * 2 ^ 13
  | .sbFree lvl o => lvl * 2 ^ 8 + o.code * 2 ^ 13
  | .sbWr lvl o => lvl * 2 ^ 8 + o.code * 2 ^ 13
  | .sbRd lvl o => lvl * 2 ^ 8 + o.code * 2 ^ 13
  | .sbQuant lvl o => lvl * 2 ^ 8 + o.code * 2 ^ 13
  | .sbDequant lvl o => lvl * 2 ^ 8 + o.code * 2 ^ 13
  | .sbExtract lvl o => lvl * 2 ^ 8 + o.code * 2 ^ 13
  | .sbPlace lvl o => lvl * 2 ^ 8 + o.code * 2 ^ 13
  | .sbInfo lvl o => lvl * 2 ^ 8 + o.code * 2 ^ 13
  | .wtInit => 0
  | .wtFwd lvl => lvl * 2 ^ 8
  | .wtInv lvl => lvl * 2 ^ 8
  | .mbClear => 0
  | .mbPut => 0
  | .mbGet => 0
  | .mbEncode pad tileEnd => pad.toNat * 2 ^ 15 + tileEnd.toNat * 2 ^ 16
  | .mbDecode => 0

/-- The command word of a command (R70, R80). -/
def encode (i : Instr) : Word := BitVec.ofNat 32 (i.opcode + i.fieldBits)

/-- The command the decoder reads from the one 32-bit word whose bits are `w`; bits at and above `nbits` are 0. -/
def decodeTableWord (nbits w : Nat) : Option Instr :=
  match decode (BitVec.ofNat 32 (w % 2 ^ nbits)) with
  | .ok i => some i
  | .error _ => none

end Sys2Proof
end

