-- ==== Sys2Proof/Machine/Bitstream.lean ====
section
/-! DEFINITION. The bit accessor commands on CB (40_bitstream.md R90 to R107). -/

namespace Sys2Proof.Machine

/-- R91: the command's `n` bits from ARG0 lie inside CB, else BAD_OPERAND(pos); exact, no wrap. -/
def checkSpan (s : State) (n : Nat) : Check := ⟨decide (s.u0 + n ≤ Config.capBits), ⟨.badOperand, s.u0⟩⟩

/-- R77: 1 ≤ K ≤ 32, else BAD_OPERAND(K). -/
def checkCount (k : Nat) : Check := ⟨decide (1 ≤ k) && decide (k ≤ 32), ⟨.badOperand, k⟩⟩

/-- R98 BS_SETBIT. -/
def execBsSetbit (s : State) : Host.Outcome State Fault Refusal :=
  command [checkSpan s 1] (fun t => { t with cb := t.cb.putBit t.u0 true }) s

/-- R99 BS_CLRBIT. -/
def execBsClrbit (s : State) : Host.Outcome State Fault Refusal :=
  command [checkSpan s 1] (fun t => { t with cb := t.cb.putBit t.u0 false }) s

/-- R100 BS_GETBIT. -/
def execBsGetbit (s : State) : Host.Outcome State Fault Refusal :=
  command [checkSpan s 1] (fun t => { t with result0 := reg32 (t.cb.getBit t.u0).toNat }) s

/-- R101 BS_SETVAL. -/
def execBsSetval (k : Nat) (s : State) : Host.Outcome State Fault Refusal :=
  command [checkCount k, checkSpan s k] (fun t => { t with cb := t.cb.setVal t.u0 t.u1 k }) s

/-- R102 BS_GETVAL. -/
def execBsGetval (k : Nat) (s : State) : Host.Outcome State Fault Refusal :=
  command [checkCount k, checkSpan s k]
    (fun t => { t with result0 := reg32 (getVal t.cb.getBit t.u0 k) }) s

/-- R103 BS_CMPVAL. -/
def execBsCmpval (k : Nat) (s : State) : Host.Outcome State Fault Refusal :=
  command [checkCount k, checkSpan s k]
    (fun t => { t with result0 := if getVal t.cb.getBit t.u0 k = t.u1 % 2 ^ k then 1#32 else 0#32 }) s

/-- R104 BS_SEEK0. -/
def execBsSeek0 (s : State) : Host.Outcome State Fault Refusal :=
  command [checkSpan s s.u1] (fun t => { t with result0 := reg32 (seek t.cb.getBit false t.u0 t.u1) }) s

/-- R105 BS_SEEK1. -/
def execBsSeek1 (s : State) : Host.Outcome State Fault Refusal :=
  command [checkSpan s s.u1] (fun t => { t with result0 := reg32 (seek t.cb.getBit true t.u0 t.u1) }) s

/-- R106 BS_ALIGN: no check, 32-bit wrap. -/
def execBsAlign (s : State) : Host.Outcome State Fault Refusal :=
  command [] (fun t => { t with result0 := reg32 (alignWordPos t.u0) }) s

/-- R107 BS_NWORDS: no check, 32-bit wrap. -/
def execBsNwords (s : State) : Host.Outcome State Fault Refusal :=
  command [] (fun t => { t with result0 := reg32 (numberOfWords t.u0) }) s

end Sys2Proof.Machine
end

