-- ==== Sys2Proof/Machine/Control.lean ====
section
/-! DEFINITION. The control family: NOP (30_encoding.md R83). -/

namespace Sys2Proof.Machine

/-- R83 NOP: only completes. -/
def execNop (s : State) : Host.Outcome State Fault Refusal := command [] (fun t => t) s

end Sys2Proof.Machine
end

