-- ==== Sys2Proof/Machine/Quantizer.lean ====
section
/-! DEFINITION. The quantizer, the dequantizer and the scan order (41_subband.md R120 to R132). -/

namespace Sys2Proof.Machine

/-- R120 `off(l,o)`. -/
def quantOffset (l : Nat) : Orient → Int
  | .ll => l + 1
  | .hl => l
  | .lh => l
  | .hh => l - 1

/-- R120: the effective parameter, exact and possibly negative. -/
def effParam (q l : Nat) (o : Orient) : Int := q - quantOffset l o

/-- R121: the dead-zone threshold T(p). -/
def deadZone (p : Nat) : Nat := 2 ^ p * 7 / 5

/-- R122: the rounded magnitude, halves away from zero. -/
def roundShift (m p : Nat) : Nat := (m / 2 ^ (p - 1) + 1) / 2

/-- R122 Q_LL, for p ≥ 1. -/
def quantLL (x : Word) (p : Nat) : Word :=
  if 0 ≤ s32 x then wrap32 (roundShift (absCoef x) p) else wrap32 (-(roundShift (absCoef x) p : Int))

/-- R122 Q_HX, for p ≥ 1: the comparison with T is strict. -/
def quantHX (x : Word) (p : Nat) : Word :=
  if (deadZone p : Int) < s32 x then wrap32 (roundShift (absCoef x) p)
  else if s32 x < -(deadZone p : Int) then wrap32 (-(roundShift (absCoef x) p : Int))
  else 0#32

/-- R122: the quantizer of an orientation. -/
def quantCoef (o : Orient) (p : Nat) (x : Word) : Word := if o = .ll then quantLL x p else quantHX x p

/-- R124: the dequantizer, a left shift with the 32-bit wrap; with p = 0 it is the identity. -/
def dequantCoef (p : Nat) (x : Word) : Word := wrap32 (s32 x * 2 ^ p)

/-- R123: quantize a band; nothing changes when the effective parameter is not positive. -/
def quantBand (q l : Nat) (o : Orient) (cs : List Word) : List Word :=
  if effParam q l o ≤ 0 then cs else cs.map (quantCoef o (effParam q l o).toNat)

/-- R125: dequantize a band; nothing changes when the effective parameter is not positive. -/
def dequantBand (q l : Nat) (o : Orient) (cs : List Word) : List Word :=
  if effParam q l o ≤ 0 then cs else cs.map (dequantCoef (effParam q l o).toNat)

/-- R131: one block of `nr` rows and `nc` columns at (r0, c0) of a band of width `w`, row-major. -/
def scanBlock (w r0 c0 nr nc : Nat) : List Nat :=
  (List.range nr).flatMap fun y => (List.range nc).map fun x => (r0 + y) * w + (c0 + x)

/-- R131: the scan list of a band, with the block partition of R130. -/
def scan (w h : Nat) : List Nat :=
  let b := Config.linBlock
  (List.range (h / b)).flatMap (fun bi =>
      (List.range (w / b)).flatMap (fun bj => scanBlock w (b * bi) (b * bj) b b)
        ++ scanBlock w (b * bi) (b * (w / b)) b (w % b))
    ++ (List.range (w / b)).flatMap (fun bj => scanBlock w (b * (h / b)) (b * bj) (h % b) b)
    ++ scanBlock w (b * (h / b)) (b * (w / b)) (h % b) (w % b)

end Sys2Proof.Machine
end

