-- ==== Sys2Proof/Machine/Subband.lean ====
section
/-! DEFINITION. The subband commands (41_subband.md R110, R115 to R119, R123, R125, R133, R134). -/

namespace Sys2Proof.Machine

/-- R115 SB_ALLOC: zero-fill, allocating if needed. -/
def execSbAlloc (l : Nat) (o : Orient) (s : State) : Host.Outcome State Fault Refusal :=
  command (bandChecks s l o ++ [checkRoomFor s l o])
    (fun t => storeBand l o (List.replicate (t.bandSize l o) 0#32) t) s

/-- R116 SB_FREE. -/
def execSbFree (l : Nat) (o : Orient) (s : State) : Host.Outcome State Fault Refusal :=
  command (bandChecks s l o) (fun t => freeBand l o t) s

/-- R117, R118: the band index in ARG0 is legal, else BAD_OPERAND(i). -/
def checkIndex (s : State) (l : Nat) (o : Orient) : Check :=
  ⟨decide (s.u0 < s.bandSize l o), ⟨.badOperand, s.u0⟩⟩

/-- R117 SB_WR. -/
def execSbWr (l : Nat) (o : Orient) (s : State) : Host.Outcome State Fault Refusal :=
  command (bandChecks s l o ++ [checkIndex s l o, checkAlloc s l o])
    (fun t => storeBand l o ((t.coefs l o).set t.u0 t.arg1) t) s

/-- R118 SB_RD. -/
def execSbRd (l : Nat) (o : Orient) (s : State) : Host.Outcome State Fault Refusal :=
  command (bandChecks s l o ++ [checkIndex s l o, checkAlloc s l o])
    (fun t => { t with result0 := t.coef l o t.u0 }) s

/-- R119 SB_INFO. -/
def execSbInfo (l : Nat) (o : Orient) (s : State) : Host.Outcome State Fault Refusal :=
  command (bandChecks s l o)
    (fun t => { t with
      result0 := reg32 (t.bw l o), result1 := reg32 (t.bh l o), result2 := reg32 (t.alloc l o).toNat }) s

/-- R123 SB_QUANT. -/
def execSbQuant (l : Nat) (o : Orient) (s : State) : Host.Outcome State Fault Refusal :=
  command (bandChecks s l o ++ [checkQ s.u0, checkAlloc s l o])
    (fun t => storeBand l o (quantBand t.u0 l o (t.coefs l o)) t) s

/-- R125 SB_DEQUANT. -/
def execSbDequant (l : Nat) (o : Orient) (s : State) : Host.Outcome State Fault Refusal :=
  command (bandChecks s l o ++ [checkQ s.u0, checkAlloc s l o])
    (fun t => storeBand l o (dequantBand t.u0 l o (t.coefs l o)) t) s

/-- R133, R134: the scan start in ARG0 is legal, else BAD_OPERAND(start). -/
def checkStart (s : State) (l : Nat) (o : Orient) : Check :=
  ⟨decide (s.u0 ≤ s.bandSize l o), ⟨.badOperand, s.u0⟩⟩

/-- R133: how many coefficients SB_EXTRACT moves, until the band ends or the macroblock is full. -/
def State.extractCount (s : State) (l : Nat) (o : Orient) : Nat :=
  min (s.bandSize l o - s.u0) (Config.mbCap - s.vpos)

/-- The `n` band indices the scan lists from scan index `start` (R131). -/
def State.scanSpan (s : State) (l : Nat) (o : Orient) (start n : Nat) : List Nat :=
  ((scan (s.bw l o) (s.bh l o)).drop start).take n

/-- R133: the coefficients SB_EXTRACT moves, in scan order. -/
def State.extracted (s : State) (l : Nat) (o : Orient) : List Word :=
  (s.scanSpan l o s.u0 (s.extractCount l o)).map (s.coef l o)

/-- R133: the running maximum magnitude after appending values (R168). -/
def maxAbsAfter (m : Nat) (vs : List Word) : Nat := vs.foldl (fun a v => max a (absCoef v)) m

/-- R133: the effect of SB_EXTRACT. -/
def extractBand (l : Nat) (o : Orient) (s : State) : State :=
  { s with
    mbv := s.mbv.writeWords s.vpos (s.extracted l o)
    vpos := s.vpos + s.extractCount l o
    vlim := 0
    maxAbs := maxAbsAfter s.maxAbs (s.extracted l o)
    result0 := reg32 (s.u0 + s.extractCount l o)
    result1 := reg32 (s.extractCount l o) }

/-- R133 SB_EXTRACT. -/
def execSbExtract (l : Nat) (o : Orient) (s : State) : Host.Outcome State Fault Refusal :=
  command
    (bandChecks s l o ++
      [checkStart s l o, checkAlloc s l o,
       ⟨!(decide (s.u0 < s.bandSize l o) && s.mbFull), ⟨.mbOverflow, s.vpos⟩⟩])
    (fun t => extractBand l o t) s

/-- R134: how many coefficients SB_PLACE moves, until the band is complete or the macroblock is exhausted. -/
def State.placeCount (s : State) (l : Nat) (o : Orient) : Nat :=
  min (s.bandSize l o - s.u0) (s.vlim - s.vpos)

/-- R134: the clamped effective parameter of SB_PLACE, whose q is in ARG1. -/
def State.placeParam (s : State) (l : Nat) (o : Orient) : Nat := (effParam s.u1 l o).toNat

/-- R134: the band SB_PLACE starts from, zero-filled if it must be allocated (R112). -/
def State.placeBase (s : State) (l : Nat) (o : Orient) : List Word :=
  if s.alloc l o then s.coefs l o else List.replicate (s.bandSize l o) 0#32

/-- R134: the band after placing dequantized macroblock values at their scan positions. -/
def State.placed (s : State) (l : Nat) (o : Orient) : List Word :=
  ((s.scanSpan l o s.u0 (s.placeCount l o)).zip (s.mbv.readWords s.vpos (s.placeCount l o))).foldl
    (fun cs iv => cs.set iv.1 (dequantCoef (s.placeParam l o) iv.2)) (s.placeBase l o)

/-- R134: the effect of SB_PLACE. -/
def placeBand (l : Nat) (o : Orient) (s : State) : State :=
  { storeBand l o (s.placed l o) s with
    vpos := s.vpos + s.placeCount l o
    result0 := reg32 (s.u0 + s.placeCount l o)
    result1 := reg32 (s.placeCount l o) }

/-- R134 SB_PLACE. -/
def execSbPlace (l : Nat) (o : Orient) (s : State) : Host.Outcome State Fault Refusal :=
  command
    (bandChecks s l o ++
      [checkQ s.u1, checkStart s l o, checkRoomFor s l o,
       ⟨!(decide (s.u0 < s.bandSize l o) && s.mbEmpty), ⟨.mbUnderflow, s.vpos⟩⟩])
    (fun t => placeBand l o t) s

end Sys2Proof.Machine
end

