-- ==== Sys2Proof/Machine/Macroblock.lean ====
section
/-! DEFINITION. Filling and draining the macroblock (43_mb_encoder.md R165 to R168; 44_mb_decoder.md R195, R196), and the
coefficients as the bit-plane coder sees them (R172, R174, R198). -/

namespace Sys2Proof.Machine

/-- R166 MB_CLEAR. -/
def execMbClear (s : State) : Host.Outcome State Fault Refusal :=
  command [] (fun t => { t with vpos := 0, vlim := 0, maxAbs := 0 }) s

/-- R167 MB_PUT. -/
def execMbPut (s : State) : Host.Outcome State Fault Refusal :=
  command [⟨decide (s.vpos < Config.mbCap), ⟨.mbOverflow, s.vpos⟩⟩]
    (fun t => { t with
      vlim := 0
      mbv := t.mbv.writeWords t.vpos [t.arg0]
      vpos := t.vpos + 1
      maxAbs := max t.maxAbs (absCoef t.arg0) }) s

/-- R196 MB_GET. -/
def execMbGet (s : State) : Host.Outcome State Fault Refusal :=
  command [⟨decide (s.vpos < s.vlim), ⟨.mbUnderflow, s.vpos⟩⟩]
    (fun t => { t with result0 := t.mbv.readWord t.vpos, vpos := t.vpos + 1 }) s

/-- One coefficient of the bit-plane coder: its magnitude, its sign and its significance flag SF. -/
structure Coef where
  mag : Nat
  neg : Bool
  sig : Bool
deriving DecidableEq, Repr

/-- R174: a stored value as the encoder sees it, not yet significant (R172). -/
def coefOf (w : Word) : Coef := ⟨absCoef w, decide (s32 w < 0), false⟩

/-- R208: the stored pattern of a decoded coefficient. -/
def Coef.word (c : Coef) : Word := if c.neg then wrap32 (-(c.mag : Int)) else wrap32 c.mag

/-- R172: the indices with SF = 1 from index `i` on, the sentinel at the end among them. -/
def sigIndices : Nat → List Coef → List Nat
  | i, [] => [i]
  | i, c :: t => if c.sig then i :: sigIndices (i + 1) t else sigIndices (i + 1) t

/-- R200: the number of positions not yet significant. -/
def countInsignificant (cs : List Coef) : Nat := (cs.filter (fun c => !c.sig)).length

end Sys2Proof.Machine
end

