-- ==== Sys2Proof/Machine/Decoder.lean ====
section
/-! DEFINITION. MB_DECODE (44_mb_decoder.md R197 to R211). The plane loops of R202, R204 and R205 decide the positions one
by one, in order, and read every bit once, in stream order, so the passes below walk the coefficients one by one, with the
part of a run that is still to come in their working state (log 12). -/

namespace Sys2Proof.Machine

/-- A payload being read: the bits of CB and `lim`, the first bit position past the loaded words (R198). -/
structure Payload where
  bits : BitString
  lim  : Nat
deriving DecidableEq, Repr

/-- R199 `Rd(p, lo, hi)`: the region check comes before the length check. -/
def Payload.rd (y : Payload) (p lo hi : Nat) : Except Err Bool :=
  if p < lo ∨ hi ≤ p then .error ⟨.formatCannotRead, p⟩
  else if y.lim ≤ p then .error ⟨.missingData, p⟩
  else .ok (BitString.getBit y.bits p)

/-- R199 `Rd(p, 0, ∞)`, for header fields. -/
def Payload.rdHeader (y : Payload) (p : Nat) : Except Err Bool :=
  if y.lim ≤ p then .error ⟨.missingData, p⟩ else .ok (BitString.getBit y.bits p)

/-- R199 `RdVal` over a checked read: bits from `p` upwards, so that an error names the first bad bit. -/
def rdVal (rd : Nat → Except Err Bool) (p : Nat) : Nat → Except Err Nat
  | 0 => .ok 0
  | k + 1 =>
    match rd p with
    | .error e => .error e
    | .ok b =>
      match rdVal rd (p + 1) k with
      | .error e => .error e
      | .ok v => .ok (b.toNat + 2 * v)

/-- R206: the refinement bits of a plane: they start at `start` and `count` of them are allowed. -/
structure RefRegion where
  start : Nat
  count : Nat
deriving DecidableEq, Repr

/-- R206: one refinement bit, the `rp`-th, into the coefficient's plane `b`. -/
def refineCoef (y : Payload) (r : RefRegion) (b rp : Nat) (e : Coef) : Except Err Coef :=
  match y.rd (r.start + rp) r.start (r.start + r.count) with
  | .error x => .error x
  | .ok true => .ok { e with mag := e.mag ||| 2 ^ b }
  | .ok false => .ok e

/-- A position becomes significant in plane `b` with the sign `neg` (R202, R204, R205). -/
def becomeSignificant (b : Nat) (neg : Bool) (e : Coef) : Coef :=
  { mag := e.mag ||| 2 ^ b, neg := neg, sig := true }

/-- What a pass over the positions does at one position: the coefficient after it and the pass's state, or an error. -/
abbrev PosStep (σ : Type) := Coef → σ → Except Err (Coef × σ)

/-- Walk the positions of a plane: refinement at a position that was significant, `step` at one that was not. -/
def walk {σ : Type} (y : Payload) (r : RefRegion) (b : Nat) (step : PosStep σ) :
    List Coef → Nat → σ → Except Err (List Coef × σ)
  | [], _, x => .ok ([], x)
  | e :: t, rp, x =>
    if e.sig then
      match refineCoef y r b rp e with
      | .error z => .error z
      | .ok e' =>
        match walk y r b step t (rp + 1) x with
        | .error z => .error z
        | .ok (t', x') => .ok (e' :: t', x')
    else
      match step e x with
      | .error z => .error z
      | .ok (e', x1) =>
        match walk y r b step t rp x1 with
        | .error z => .error z
        | .ok (t', x') => .ok (e' :: t', x')

/-! ## RL Sig form (R202) -/

/-- The working state of R202: the cursor, k with runlen = 2^k, the zeros of the current run still to come, and whether
a significant position ends that run. -/
structure RlPass where
  c    : Nat
  k    : Nat
  rest : Nat
  set1 : Bool
deriving DecidableEq, Repr

/-- R202: k after a full run, capped at 32. -/
def raiseK (k : Nat) : Nat := if k < 32 then k + 1 else k

/-- R202: read the next run-length symbol. -/
def rlSymbol (rd : Nat → Except Err Bool) (x : RlPass) : Except Err RlPass :=
  match rd x.c with
  | .error z => .error z
  | .ok true =>
    match rdVal rd (x.c + 1) x.k with
    | .error z => .error z
    | .ok cnt => .ok { c := x.c + 1 + x.k, k := x.k - 1, rest := cnt, set1 := true }
  | .ok false => .ok { c := x.c + 1, k := raiseK x.k, rest := 2 ^ x.k, set1 := false }

/-- R202: a symbol is read only when the run before it is used up. -/
def rlRefill (rd : Nat → Except Err Bool) (x : RlPass) : Except Err RlPass :=
  if 0 < x.rest ∨ x.set1 = true then .ok x else rlSymbol rd x

/-- R202: one position that was not significant. -/
def rlStep (rd : Nat → Except Err Bool) (b : Nat) : PosStep RlPass := fun e x =>
  match rlRefill rd x with
  | .error z => .error z
  | .ok x1 =>
    if 0 < x1.rest then .ok (e, { x1 with rest := x1.rest - 1 })
    else
      match rd x1.c with
      | .error z => .error z
      | .ok neg => .ok (becomeSignificant b neg e, { x1 with c := x1.c + 1, set1 := false })

/-- The result of one plane: its coefficients and where its refinement bits start. -/
abbrev PlaneResult := Except Err (List Coef × Nat)

/-- R202: the RL Sig form of a plane that starts at `cp`; `ns` positions are not significant. -/
def decodeRlSig (y : Payload) (b cp ns : Nat) (cs : List Coef) : PlaneResult :=
  match rdVal y.rdHeader (cp + 1) Config.lenBits with
  | .error z => .error z
  | .ok codeLen =>
    let s0 := cp + 16
    let refStart := alignWordPos (s0 + codeLen)
    match walk y ⟨refStart, cs.length - ns⟩ b (rlStep (fun p => y.rd p s0 (s0 + codeLen)) b) cs 0 ⟨s0, 3, 0, false⟩ with
    | .error z => .error z
    | .ok (cs', x) => if 0 < x.rest then .error ⟨.formatCannotRead, cp⟩ else .ok (cs', refStart)

/-! ## Literal Sig form (R203 to R205) -/

/-- The working state of R204's sign code: the cursor, k with runlen = 2^k, the negative signs still to come, and whether
the positive sign that ends a short run is still to come. -/
structure SignDec where
  c     : Nat
  k     : Nat
  count : Nat
  zpend : Bool
deriving DecidableEq, Repr

/-- R204: the next sign of the run-length sign code. -/
def nextSign (rd : Nat → Except Err Bool) (x : SignDec) : Except Err (Bool × SignDec) :=
  if 0 < x.count then .ok (true, { x with count := x.count - 1 })
  else if x.zpend then .ok (false, { x with zpend := false })
  else
    match rd x.c with
    | .error z => .error z
    | .ok true => .ok (true, { x with c := x.c + 1, count := 2 ^ x.k - 1, k := raiseK x.k })
    | .ok false =>
      match rdVal rd (x.c + 1) x.k with
      | .error z => .error z
      | .ok 0 => .ok (false, { x with c := x.c + 1 + x.k, k := x.k - 1 })
      | .ok (n + 1) => .ok (true, { c := x.c + 1 + x.k, k := x.k - 1, count := n, zpend := true })

/-- R204, R205: one position that was not significant, in a literal Sig form: its significance bit is the `sp`-th of
`sls` bits from `sigStart`, and `sign` answers the next sign. -/
def literalStep {σ : Type} (y : Payload) (sigStart sls b : Nat) (sign : σ → Except Err (Bool × σ)) :
    PosStep (Nat × σ) := fun e x =>
  match y.rd (sigStart + x.1) sigStart (sigStart + sls) with
  | .error z => .error z
  | .ok false => .ok (e, (x.1 + 1, x.2))
  | .ok true =>
    match sign x.2 with
    | .error z => .error z
    | .ok (neg, x') => .ok (becomeSignificant b neg e, (x.1 + 1, x'))

/-- R205: the next literal sign, the `sg`-th of `signLen` bits from `g0`. -/
def literalSign (y : Payload) (g0 signLen : Nat) (sg : Nat) : Except Err (Bool × Nat) :=
  match y.rd (g0 + sg) g0 (g0 + signLen) with
  | .error z => .error z
  | .ok neg => .ok (neg, sg + 1)

/-- R204, R205: walk a plane of literal significance bits from `sigStart`. -/
def decodeLiteral {σ : Type} (y : Payload) (b ns sls sigStart : Nat) (sign : σ → Except Err (Bool × σ)) (x : σ)
    (cs : List Coef) : PlaneResult :=
  let refStart := alignWordPos (sigStart + sls)
  match walk y ⟨refStart, cs.length - ns⟩ b (literalStep y sigStart sls b sign) cs 0 (0, x) with
  | .error z => .error z
  | .ok (cs', _) => .ok (cs', refStart)

/-- R204: the RL sign form whose selector is at `cp`. -/
def decodeRlSign (y : Payload) (b cp ns sls : Nat) (cs : List Coef) : PlaneResult :=
  match rdVal y.rdHeader (cp + 1) Config.lenBits with
  | .error z => .error z
  | .ok codeLen =>
    let g0 := cp + 16
    decodeLiteral y b ns sls (alignWordPos (g0 + codeLen)) (nextSign (fun p => y.rd p g0 (g0 + codeLen)))
      ⟨g0, 0, 0, false⟩ cs

/-- R205: the literal sign form whose selector is at `cp`. -/
def decodeLiteralSign (y : Payload) (b cp ns sls : Nat) (cs : List Coef) : PlaneResult :=
  match rdVal y.rdHeader (cp + 1) Config.lenBits with
  | .error z => .error z
  | .ok signLen =>
    let g0 := alignWordPos (cp + 16)
    decodeLiteral y b ns sls (alignWordPos (g0 + signLen)) (literalSign y g0 signLen) 0 cs

/-- R203: the literal Sig form of a plane that starts at `cp`; its sigLen must be the decoder's own count. -/
def decodeLiteralSig (y : Payload) (b cp ns : Nat) (cs : List Coef) : PlaneResult :=
  match rdVal y.rdHeader (cp + 1) Config.lenBits with
  | .error z => .error z
  | .ok sls =>
    if sls ≠ ns then .error ⟨.formatCannotRead, cp + 1⟩
    else
      match y.rdHeader (cp + 16) with
      | .error z => .error z
      | .ok true => decodeRlSign y b (cp + 16) ns sls cs
      | .ok false => decodeLiteralSign y b (cp + 16) ns sls cs

/-! ## Planes and values (R200, R201, R207) -/

/-- R201: the Sig form is selected by the plane's first bit. -/
def decodeSig (y : Payload) (b cp ns : Nat) (cs : List Coef) : PlaneResult :=
  match y.rdHeader cp with
  | .error z => .error z
  | .ok true => decodeRlSig y b cp ns cs
  | .ok false => decodeLiteralSig y b cp ns cs

/-- R200, R207: one plane that starts at `cp`, and its aligned end. -/
def decodePlane (y : Payload) (b cp : Nat) (cs : List Coef) : PlaneResult :=
  let ns := countInsignificant cs
  match decodeSig y b cp ns cs with
  | .error z => .error z
  | .ok (cs', refStart) =>
    let fin := alignWordPos (refStart + (cs.length - ns))
    if y.lim < fin then .error ⟨.missingData, fin⟩ else .ok (cs', fin)

/-- R200: the planes `n - 1` down to 0. -/
def decodePlanes (y : Payload) : Nat → Nat → List Coef → Except Err (List Coef)
  | 0, _, cs => .ok cs
  | n + 1, cp, cs =>
    match decodePlane y n cp cs with
    | .error z => .error z
    | .ok (cs', cp') => decodePlanes y n cp' cs'

/-- R200: the plane count a field stands for. -/
def planesOf (field : Nat) : Nat := if field = 0 then Config.maxPlanes + 1 else field

/-- R198 to R208: decode a payload of `bs` coefficients: the nPlanes field and the coefficients, or the first error. -/
def decodeValues (y : Payload) (bs : Nat) : Except Err (Nat × List Coef) :=
  match rdVal y.rdHeader 0 Config.nplanesBits with
  | .error z => .error z
  | .ok field =>
    match decodePlanes y (planesOf field) 5 (List.replicate bs ⟨0, false, false⟩) with
    | .error z => .error z
    | .ok cs => .ok (field, cs)

/-- R197: WL, the loaded payload words. -/
def State.loadedWords (s : State) : Nat := s.wordlen.toNat

/-- R197: bs = MBHDR[14:0]; TILEEND is ignored. -/
def State.decodeSize (s : State) : Nat := s.mbhdr.toNat % 2 ^ 15

/-- R197, R198: the payload MB_DECODE reads. -/
def State.payload (s : State) : Payload := ⟨s.cb.toBits, Config.wordBits * s.loadedWords⟩

/-- R208, R209: the writes of a successful decode. -/
def decodeWrites (field : Nat) (cs : List Coef) (s : State) : State :=
  { s with
    mbv := s.mbv.writeWords 0 (cs.map Coef.word)
    sf := sigIndices 0 cs
    vpos := 0
    vlim := cs.length
    maxAbs := 0
    nplanes := BitVec.ofNat 5 field
    result0 := reg32 cs.length
    result1 := reg32 field }

/-- R210, U2: the state a stream error leaves before it is raised: an empty macroblock, MBV and SF unspecified. They are
free values, drawn with the state's counter (log 6). -/
def decodeAbandon (s : State) : State :=
  { s with
    mbv := cellsOf 0 (((List.range Config.mbCap).map (Config.freeMbv s.freeCtr)).flatMap wordBytes)
    sf := (List.range (Config.mbCap + 1)).filter (Config.freeSf s.freeCtr)
    vpos := 0
    vlim := 0
    maxAbs := 0
    freeCtr := s.freeCtr + 1 }

/-- R197: the operand checks of MB_DECODE. -/
def decodeChecks (s : State) : List Check :=
  [⟨decide (s.loadedWords ≤ Config.codeWords), ⟨.badOperand, s.loadedWords⟩⟩,
   ⟨decide (1 ≤ s.decodeSize) && decide (s.decodeSize ≤ Config.mbCap), ⟨.badOperand, s.decodeSize⟩⟩]

/-- R197 to R210: MB_DECODE after its operand checks. -/
def decodeRun (s : State) : State :=
  match decodeValues s.payload s.decodeSize with
  | .ok (field, cs) => complete (decodeWrites field cs s)
  | .error e => raiseErr e (decodeAbandon s)

/-- R197 MB_DECODE. -/
def execMbDecode (s : State) : Host.Outcome State Fault Refusal :=
  match firstFail (decodeChecks s) with
  | some e => .next (raiseErr e s)
  | none => .next (decodeRun s)

end Sys2Proof.Machine
end

