-- ==== Sys2Proof/Machine/Encoder.lean ====
section
/-! DEFINITION. MB_ENCODE (43_mb_encoder.md R169 to R188). CB is built as one bit string from zero (R171). R175 visits
every position once, in order, and decides by the significance flag as it was before the plane, so the pass below walks the
coefficients one by one (log 12). -/

namespace Sys2Proof.Machine

/-- The working state of DecomposeSig (R175): the array being written, the write position, the run-length state with
runlen = 2^k (R176), the counts, and the temporaries. -/
structure SigPass where
  cb      : BitString
  pos     : Nat
  k       : Nat
  count   : Nat
  sigPos  : Nat
  signLen : Nat
  refPos  : Nat
  sigt    : BitString
  reft    : BitString
  sgnt    : BitString
deriving DecidableEq, Repr

/-- Append one bit of the run-length code at `pos`. -/
def emitBit (x : SigPass) (b : Bool) : SigPass :=
  { x with cb := BitString.putBit x.cb x.pos b, pos := x.pos + 1 }

/-- Append the `k` bits of a count at `pos`; with k = 0 nothing is appended. -/
def emitCount (x : SigPass) (v k : Nat) : SigPass :=
  { x with cb := BitString.setVal x.cb x.pos v k, pos := x.pos + k }

/-- R176, R180: k after a full run, capped at 32. -/
def growK (k : Nat) : Nat := if k < 32 then k + 1 else k

/-- R175, refinement: the plane's bit of a position that was significant before the plane. -/
def refineStep (b : Nat) (e : Coef) (x : SigPass) : SigPass :=
  { x with reft := BitString.putBit x.reft x.refPos (e.mag.testBit b), refPos := x.refPos + 1 }

/-- R175: the position becomes significant: '1', the count, the inline sign. -/
def significantStep (e : Coef) (x : SigPass) : SigPass :=
  { emitBit (emitCount (emitBit x true) x.count x.k) e.neg with
    k := x.k - 1
    count := 0
    sgnt := BitString.putBit x.sgnt x.signLen e.neg
    signLen := x.signLen + 1
    sigt := BitString.putBit x.sigt x.sigPos true
    sigPos := x.sigPos + 1 }

/-- R175: the position stays not significant: one more zero, and '0' when the run is full. -/
def zeroStep (x : SigPass) : SigPass :=
  if x.count + 1 = 2 ^ x.k then
    { emitBit x false with k := growK x.k, count := 0, sigPos := x.sigPos + 1 }
  else { x with count := x.count + 1, sigPos := x.sigPos + 1 }

/-- R175: one position of plane `b`. -/
def sigStep (b : Nat) (e : Coef) (x : SigPass) : SigPass :=
  if e.sig then refineStep b e x
  else if e.mag.testBit b then significantStep e x
  else zeroStep x

/-- R175: DecomposeSig's pass over the positions. -/
def decompose (b : Nat) (cs : List Coef) (x : SigPass) : SigPass :=
  cs.foldl (fun y e => sigStep b e y) x

/-- R175: the flags after plane `b`: every position whose bit is 1 is significant. -/
def flagsAfter (b : Nat) (cs : List Coef) : List Coef :=
  cs.map fun e => { e with sig := e.sig || e.mag.testBit b }

/-- R177 Tail: the terminator, the count of trailing zeros, the dummy bit. -/
def sigTail (x : SigPass) : SigPass := emitBit (emitCount (emitBit x true) x.count x.k) true

/-- The working state of MB_ENCODE between planes (R173, R174). -/
structure EncState where
  cb    : BitString
  cp    : Nat
  coefs : List Coef
  sigt  : BitString
  reft  : BitString
  sgnt  : BitString
deriving DecidableEq, Repr

/-- R174, R175: DecomposeSig of a plane, from `cp + 16`, SIGT zeroed first. -/
def planePass (b : Nat) (e : EncState) : SigPass :=
  sigTail (decompose b e.coefs ⟨e.cb, e.cp + 16, 3, 0, 0, 0, 0, 0, e.reft, e.sgnt⟩)

/-- R178: the run-length Sig form is chosen. -/
def choosesRlSig (codeLen sigLen signLen : Nat) : Bool :=
  decide (0 < sigLen) && decide (codeLen ≤ Config.maxCodeLen)
    && decide (codeLen < alignWordPos sigLen + alignWordPos signLen + 2 * Config.lenBits)

/-- The working state of the sign trial (R180). -/
structure SignPass where
  cb  : BitString
  pos : Nat
  k   : Nat
  sp  : Nat
deriving DecidableEq, Repr

/-- R180: the sign run-length code; every turn takes at least one sign, so `signLen` turns suffice. -/
def signCode (sgnt : BitString) (signLen : Nat) : Nat → SignPass → SignPass
  | 0, x => x
  | n + 1, x =>
    if x.sp < signLen then
      let c := seek (BitString.getBit sgnt) true x.sp (min (2 ^ x.k) (signLen - x.sp))
      if c = 2 ^ x.k then
        signCode sgnt signLen n
          { x with cb := BitString.putBit x.cb x.pos true, pos := x.pos + 1, sp := x.sp + c, k := growK x.k }
      else
        signCode sgnt signLen n
          { x with
            cb := BitString.setVal (BitString.putBit x.cb x.pos false) (x.pos + 1) c x.k
            pos := x.pos + 1 + x.k
            sp := x.sp + c + 1
            k := x.k - 1 }
    else x

/-- R180: whether the sign trial is made. -/
def triesSignCode (favorSpeed : Bool) (signLen : Nat) : Bool := !favorSpeed && decide (0 < signLen)

/-- R180: the sign trial from `s0`, or nothing. -/
def signTrial (favorSpeed : Bool) (cb : BitString) (s0 : Nat) (sgnt : BitString) (signLen : Nat) : SignPass :=
  if triesSignCode favorSpeed signLen then signCode sgnt signLen signLen ⟨cb, s0, 0, 0⟩ else ⟨cb, s0, 0, 0⟩

/-- R181: the run-length sign form is chosen. -/
def choosesRlSign (favorSpeed : Bool) (signCodeLen signLen : Nat) : Bool :=
  triesSignCode favorSpeed signLen && decide (signCodeLen ≤ Config.maxCodeLen) && decide (signCodeLen < signLen)

/-- R181, R182, R183: copy the `n` first words of a temporary into words `wp .. wp + n - 1`. -/
def copyWords (cb : BitString) (wp : Nat) (src : BitString) (n : Nat) : BitString :=
  BitString.setVal cb (Config.wordBits * wp) src (Config.wordBits * n)

/-- R179: emit the run-length Sig form; the code itself is in place already. Answers CB and the new `cp`. -/
def emitRlSig (cb : BitString) (cp codeLen : Nat) : BitString × Nat :=
  (BitString.setVal (BitString.putBit cb cp true) (cp + 1) codeLen Config.lenBits, cp + 16 + codeLen)

/-- R181: emit the Sign form at `cp`. Answers CB and the word position of what follows. -/
def emitSign (favorSpeed : Bool) (cb : BitString) (cp signCodeLen : Nat) (sgnt : BitString) (signLen : Nat) :
    BitString × Nat :=
  if choosesRlSign favorSpeed signCodeLen signLen then
    (BitString.setVal (BitString.putBit cb cp true) (cp + 1) signCodeLen Config.lenBits,
      numberOfWords (cp + 16 + signCodeLen))
  else
    (copyWords (BitString.setVal (BitString.putBit cb cp false) (cp + 1) signLen Config.lenBits)
        (numberOfWords (cp + 16)) sgnt (numberOfWords signLen),
      numberOfWords (cp + 16) + numberOfWords signLen)

/-- R180 to R182: emit the literal Sig form at `cp`. Answers CB and the new `cp`. -/
def emitLiteralSig (favorSpeed : Bool) (cp : Nat) (x : SigPass) : BitString × Nat :=
  let trial := signTrial favorSpeed x.cb (cp + 32) x.sgnt x.signLen
  let head := BitString.setVal (BitString.putBit trial.cb cp false) (cp + 1) x.sigPos Config.lenBits
  let sign := emitSign favorSpeed head (cp + 16) (trial.pos - (cp + 32)) x.sgnt x.signLen
  (copyWords sign.1 sign.2 x.sigt (numberOfWords x.sigPos), (sign.2 + numberOfWords x.sigPos) * 32)

/-- R178 to R182: emit the Sig field of a plane. -/
def emitSig (favorSpeed : Bool) (cp : Nat) (x : SigPass) : BitString × Nat :=
  if choosesRlSig (x.pos - (cp + 16)) x.sigPos x.signLen then emitRlSig x.cb cp (x.pos - (cp + 16))
  else emitLiteralSig favorSpeed cp x

/-- R183: emit the refinement bits. Answers CB and the plane's end. -/
def emitRefinement (cb : BitString) (cp : Nat) (reft : BitString) (n : Nat) : BitString × Nat :=
  (copyWords cb (numberOfWords cp) reft (numberOfWords n), (numberOfWords cp + numberOfWords n) * 32)

/-- R174: one plane. -/
def encodePlane (favorSpeed : Bool) (b : Nat) (e : EncState) : EncState :=
  let x := planePass b e
  let sig := emitSig favorSpeed e.cp x
  let fin := emitRefinement sig.1 sig.2 x.reft (e.coefs.length - x.sigPos)
  ⟨fin.1, fin.2, flagsAfter b e.coefs, x.sigt, x.reft, x.sgnt⟩

/-- R174: the planes `n - 1` down to 0. -/
def encodePlanes (favorSpeed : Bool) : Nat → EncState → EncState
  | 0, e => e
  | n + 1, e => encodePlanes favorSpeed n (encodePlane favorSpeed n e)

/-- R170: the number of planes of values whose largest magnitude is `m`. -/
def planeCount (m : Nat) : Nat := if m = 0 then 1 else bitlen m

/-- R170: the largest magnitude of the values. -/
def maxMagnitude (vs : List Word) : Nat := maxAbsAfter 0 vs

/-- R171 to R183: the whole encode of a list of values. -/
def encodeValues (favorSpeed : Bool) (vs : List Word) : EncState :=
  encodePlanes favorSpeed (planeCount (maxMagnitude vs))
    ⟨BitString.setVal 0 0 (planeCount (maxMagnitude vs) % (Config.maxPlanes + 1)) Config.nplanesBits, 5, vs.map coefOf, 0, 0, 0⟩

/-- R169: the bufferSize of an MB_ENCODE. -/
def State.encodeSize (s : State) (pad : Bool) : Nat := if pad then Config.mbCap else s.vpos

/-- R169: MBV after the padding. -/
def State.paddedMbv (s : State) (pad : Bool) : Memory :=
  if pad then s.mbv.clear (4 * s.vpos) (4 * (Config.mbCap - s.vpos)) else s.mbv

/-- R169: the values an MB_ENCODE encodes. -/
def State.encodeInput (s : State) (pad : Bool) : List Word := (s.paddedMbv pad).readWords 0 (s.encodeSize pad)

/-- R188: the completion writes of an MB_ENCODE whose encode ended in `e`. -/
def encodeWrites (pad tileEnd : Bool) (e : EncState) (s : State) : State :=
  { s with
    mbv := s.paddedMbv pad
    cb := Memory.ofBits (4 * Config.codeWords) e.cb
    sf := sigIndices 0 e.coefs
    sigt := Memory.ofBits (4 * Config.tmpWords) e.sigt
    reft := Memory.ofBits (4 * Config.tmpWords) e.reft
    sgnt := Memory.ofBits (4 * Config.tmpWords) e.sgnt
    wordlen := BitVec.ofNat 16 (numberOfWords e.cp)
    mbhdr := BitVec.ofNat 16 (s.encodeSize pad + tileEnd.toNat * 2 ^ 15)
    nplanes := BitVec.ofNat 5 (planeCount (maxMagnitude (s.encodeInput pad)))
    result0 := reg32 (numberOfWords e.cp)
    result1 := reg32 (planeCount (maxMagnitude (s.encodeInput pad)) % (Config.maxPlanes + 1))
    result2 := reg32 (s.encodeSize pad)
    vpos := 0
    vlim := 0
    maxAbs := 0 }

/-- R169 MB_ENCODE. FAVOR_SPEED is the one taken for the command, which is the one it was accepted with (R23). -/
def execMbEncode (pad tileEnd : Bool) (s : State) : Host.Outcome State Fault Refusal :=
  command [⟨decide (1 ≤ s.vpos), ⟨.badOperand, 0⟩⟩]
    (fun t => encodeWrites pad tileEnd (encodeValues t.favorTaken (t.encodeInput pad)) t) s

end Sys2Proof.Machine
end

