-- ==== Sys2Proof/Machine/Lifting.lean ====
section
/-! DEFINITION. The lifting filter and the two-dimensional transform (42_wavelet.md R142 to R149). Each lifting step is
one exact sum, one `asr` and one `wrap32` (R142); the lists below walk the samples in the order of R143 and R145. -/

namespace Sys2Proof.Machine

/-- R143: a high (odd) sample `o` between the even samples `e` and `e'`; c1 = 1. -/
def liftHigh (e o e' : Word) : Word := wrap32 (s32 o - asr (s32 e + s32 e' + 1) 1)

/-- R143: a low (even) sample `e` between the high samples `h` and `h'`; c2 = 2. -/
def liftLow (h e h' : Word) : Word := wrap32 (s32 e + asr (s32 h + s32 h' + 2) 2)

/-- R143: a low sample at a border, with the one high sample `h` beside it; c1 = 1. -/
def liftLowEdge (e h : Word) : Word := wrap32 (s32 e + asr (s32 h + 1) 1)

/-- R143: the last high sample of an even length. -/
def liftHighEdge (e o : Word) : Word := wrap32 (s32 o - s32 e)

/-- R145: undo `liftHigh`. -/
def unliftHigh (e h e' : Word) : Word := wrap32 (s32 h + asr (s32 e + s32 e' + 1) 1)

/-- R145: undo `liftLow`. -/
def unliftLow (h l h' : Word) : Word := wrap32 (s32 l - asr (s32 h + s32 h' + 2) 2)

/-- R145: undo `liftLowEdge`. -/
def unliftLowEdge (l h : Word) : Word := wrap32 (s32 l - asr (s32 h + 1) 1)

/-- R145: undo `liftHighEdge`. -/
def unliftHighEdge (e h : Word) : Word := wrap32 (s32 h + s32 e)

/-- R143, interior and right border: the rest of the samples from an even position on, after the high sample `h`. -/
def forwardRest (h : Word) : List Word → List Word
  | [] => []
  | [e] => [liftLowEdge e h]
  | [e, o] => [liftLow h e (liftHighEdge e o), liftHighEdge e o]
  | e :: o :: e' :: t =>
    liftLow h e (liftHigh e o e') :: liftHigh e o e' :: forwardRest (liftHigh e o e') (e' :: t)

/-- R143 F1D. -/
def f1d (s : List Word) : List Word :=
  if s.length < Config.filterSize then s
  else
    match s with
    | e :: o :: e' :: t =>
      liftLowEdge e (liftHigh e o e') :: liftHigh e o e' :: forwardRest (liftHigh e o e') (e' :: t)
    | s => s

/-- R145, interior and right border: the rest of the samples from an odd position on, after the even sample `e`. -/
def inverseRest (e : Word) : List Word → List Word
  | [] => []
  | [h] => [unliftHighEdge e h]
  | [h, l] => [unliftHigh e h (unliftLowEdge l h), unliftLowEdge l h]
  | h :: l :: h' :: t =>
    unliftHigh e h (unliftLow h l h') :: unliftLow h l h' :: inverseRest (unliftLow h l h') (h' :: t)

/-- R145 I1D. -/
def i1d (s : List Word) : List Word :=
  if s.length < Config.filterSize then s
  else
    match s with
    | l :: h :: t => unliftLowEdge l h :: inverseRest (unliftLowEdge l h) (h :: t)
    | s => s

/-- A row-major array as `h` rows of `w` (R113). -/
def rowsOf (w : Nat) : Nat → List Word → List (List Word)
  | 0, _ => []
  | h + 1, xs => xs.take w :: rowsOf w h (xs.drop w)

/-- The `w` columns of a list of rows; applied to the columns it gives the rows back. -/
def columnsOf : Nat → List (List Word) → List (List Word)
  | 0, _ => []
  | w + 1, rs => rs.map (fun r => r.headD 0#32) :: columnsOf w (rs.map List.tail)

/-- The entries at even positions (R146). -/
def evens {α : Type} : List α → List α
  | [] => []
  | [a] => [a]
  | a :: _ :: t => a :: evens t

/-- The entries at odd positions (R146). -/
def odds {α : Type} : List α → List α
  | [] => []
  | [_] => []
  | _ :: b :: t => b :: odds t

/-- R146: put entries back at the even and the odd positions. -/
def interleave {α : Type} : List α → List α → List α
  | [], _ => []
  | a :: as, [] => a :: as
  | a :: as, b :: bs => a :: b :: interleave as bs

/-- The four bands of a level, row-major each (R146). -/
structure Quad where
  ll : List Word
  hl : List Word
  lh : List Word
  hh : List Word
deriving DecidableEq, Repr

/-- The band of an orientation. -/
def Quad.get (q : Quad) : Orient → List Word
  | .ll => q.ll | .hl => q.hl | .lh => q.lh | .hh => q.hh

/-- R146 deinterleave of an array given by its rows. -/
def deinterleave (y : List (List Word)) : Quad where
  ll := ((evens y).map evens).flatten
  hl := ((evens y).map odds).flatten
  lh := ((odds y).map evens).flatten
  hh := ((odds y).map odds).flatten

/-- R146 interleave, to the rows of a `w` x `h` array. -/
def interleaveRows (w h : Nat) (q : Quad) : List (List Word) :=
  interleave
    (List.zipWith interleave (rowsOf ((w + 1) / 2) ((h + 1) / 2) q.ll) (rowsOf (w / 2) ((h + 1) / 2) q.hl))
    (List.zipWith interleave (rowsOf ((w + 1) / 2) (h / 2) q.lh) (rowsOf (w / 2) (h / 2) q.hh))

/-- R149 FWD2: F1D on every row, then on every column, then deinterleave. -/
def fwd2 (w h : Nat) (x : List Word) : Quad :=
  deinterleave (columnsOf h ((columnsOf w ((rowsOf w h x).map f1d)).map f1d))

/-- R149 INV2: interleave, then I1D on every column, then on every row. -/
def inv2 (w h : Nat) (q : Quad) : List Word :=
  ((columnsOf h ((columnsOf w (interleaveRows w h q)).map i1d)).map i1d).flatten

end Sys2Proof.Machine
end

