-- ==== Sys2Proof/Machine/Wavelet.lean ====
section
/-! DEFINITION. The wavelet commands (42_wavelet.md R141, R150, R153). -/

namespace Sys2Proof.Machine

/-- R141 WT_INIT: the checks W ≥ 1, H ≥ 1, W*H < 2^32 (exact) and n ≤ MAX_LEVEL, then the geometry record; every
band is freed. -/
def execWtInit (s : State) : Host.Outcome State Fault Refusal :=
  command
    [⟨decide (1 ≤ s.u0), ⟨.badOperand, s.u0⟩⟩,
     ⟨decide (1 ≤ s.u1), ⟨.badOperand, s.u1⟩⟩,
     ⟨decide (s.u0 * s.u1 < 2 ^ 32), ⟨.badOperand, s.u0⟩⟩,
     ⟨decide (s.u2 ≤ Config.maxLevel), ⟨.badOperand, s.u2⟩⟩]
    (fun t => { t with
      bands := [], used := 0, geomW := t.arg0, geomH := t.arg1, geomL := BitVec.ofNat 5 t.u2, geom := true }) s

/-- R150.5: the coefficients WT_FWD must add to the store, over the four destination bands. -/
def State.fwdNeed (s : State) (l : Nat) : Nat :=
  s.needFor (l + 1) .ll + s.needFor (l + 1) .hl + s.needFor (l + 1) .lh + s.needFor (l + 1) .hh

/-- R150: the four bands of FWD2 of band (l, LL). -/
def State.fwdQuad (s : State) (l : Nat) : Quad := fwd2 (s.bw l .ll) (s.bh l .ll) (s.coefs l .ll)

/-- R150: WT_FWD quantizes every destination band, but LL only at the topmost level, and nothing when quant = 0. -/
def fwdQuantizes (s : State) (l : Nat) (o : Orient) : Bool :=
  decide (0 < s.u0) && (decide (o ≠ .ll) || decide (l + 1 = s.levels))

/-- R150: what WT_FWD leaves in destination band `(l + 1, o)`. -/
def State.fwdBand (s : State) (l : Nat) (o : Orient) : List Word :=
  if fwdQuantizes s l o then quantBand s.u0 (l + 1) o ((s.fwdQuad l).get o) else (s.fwdQuad l).get o

/-- R150: the effect of WT_FWD. -/
def forwardStep (l : Nat) (s : State) : State :=
  freeBand l .ll
    (storeBand (l + 1) .hh (s.fwdBand l .hh)
      (storeBand (l + 1) .lh (s.fwdBand l .lh)
        (storeBand (l + 1) .hl (s.fwdBand l .hl)
          (storeBand (l + 1) .ll (s.fwdBand l .ll) s))))

/-- R150 WT_FWD. -/
def execWtFwd (l : Nat) (s : State) : Host.Outcome State Fault Refusal :=
  command
    [checkGeom s,
     ⟨decide (l < s.levels), ⟨.badOperand, l⟩⟩,
     checkQ s.u0,
     checkAlloc s l .ll,
     checkRoom s (s.fwdNeed l)]
    (fun t => forwardStep l t) s

/-- R153: the four bands of level `l`. -/
def State.levelQuad (s : State) (l : Nat) : Quad :=
  ⟨s.coefs l .ll, s.coefs l .hl, s.coefs l .lh, s.coefs l .hh⟩

/-- R153: INV2 of the four bands of level `l`. -/
def State.invBand (s : State) (l : Nat) : List Word :=
  inv2 (s.bw (l - 1) .ll) (s.bh (l - 1) .ll) (s.levelQuad l)

/-- R153: the effect of WT_INV. -/
def inverseStep (l : Nat) (s : State) : State :=
  freeBand l .hh (freeBand l .lh (freeBand l .hl (freeBand l .ll (storeBand (l - 1) .ll (s.invBand l) s))))

/-- R153 WT_INV. -/
def execWtInv (l : Nat) (s : State) : Host.Outcome State Fault Refusal :=
  command
    [checkGeom s,
     ⟨decide (1 ≤ l) && decide (l ≤ s.levels), ⟨.badOperand, l⟩⟩,
     checkAlloc s l .ll, checkAlloc s l .hl, checkAlloc s l .lh, checkAlloc s l .hh,
     checkRoomFor s (l - 1) .ll]
    (fun t => inverseStep l t) s

end Sys2Proof.Machine
end

