-- ==== Sys2Proof/Machine/Dispatch.lean ====
section
/-! DEFINITION. One arm per command: the command's own meaning. -/

namespace Sys2Proof.Machine

def exec (i : Instr) (s : State) : Host.Outcome State Fault Refusal :=
  match i with
  | .nop => Sys2Proof.Machine.execNop s
  | .bsSetbit => Sys2Proof.Machine.execBsSetbit s
  | .bsClrbit => Sys2Proof.Machine.execBsClrbit s
  | .bsGetbit => Sys2Proof.Machine.execBsGetbit s
  | .bsSetval k => Sys2Proof.Machine.execBsSetval k s
  | .bsGetval k => Sys2Proof.Machine.execBsGetval k s
  | .bsCmpval k => Sys2Proof.Machine.execBsCmpval k s
  | .bsSeek0 => Sys2Proof.Machine.execBsSeek0 s
  | .bsSeek1 => Sys2Proof.Machine.execBsSeek1 s
  | .bsAlign => Sys2Proof.Machine.execBsAlign s
  | .bsNwords => Sys2Proof.Machine.execBsNwords s
  | .sbAlloc lvl o => Sys2Proof.Machine.execSbAlloc lvl o s
  | .sbFree lvl o => Sys2Proof.Machine.execSbFree lvl o s
  | .sbWr lvl o => Sys2Proof.Machine.execSbWr lvl o s
  | .sbRd lvl o => Sys2Proof.Machine.execSbRd lvl o s
  | .sbQuant lvl o => Sys2Proof.Machine.execSbQuant lvl o s
  | .sbDequant lvl o => Sys2Proof.Machine.execSbDequant lvl o s
  | .sbExtract lvl o => Sys2Proof.Machine.execSbExtract lvl o s
  | .sbPlace lvl o => Sys2Proof.Machine.execSbPlace lvl o s
  | .sbInfo lvl o => Sys2Proof.Machine.execSbInfo lvl o s
  | .wtInit => Sys2Proof.Machine.execWtInit s
  | .wtFwd lvl => Sys2Proof.Machine.execWtFwd lvl s
  | .wtInv lvl => Sys2Proof.Machine.execWtInv lvl s
  | .mbClear => Sys2Proof.Machine.execMbClear s
  | .mbPut => Sys2Proof.Machine.execMbPut s
  | .mbGet => Sys2Proof.Machine.execMbGet s
  | .mbEncode pad tileEnd => Sys2Proof.Machine.execMbEncode pad tileEnd s
  | .mbDecode => Sys2Proof.Machine.execMbDecode s

end Sys2Proof.Machine
end

