-- ==== Sys2Proof/Machine/Engine.lean ====
section
/-! DEFINITION. The engine's one step: decode the word in CMD and perform the whole command (10_state.md R43,
30_encoding.md R75). -/

namespace Sys2Proof.Machine

/-- R75, R76: a word that is no command ends with ILLEGAL_COMMAND(0) and no other effect. -/
def illegalCommand (s : State) : State := raiseErr ⟨.illegalCommand, 0⟩ s

/-- R43, R75: decode CMD, then perform the command. -/
def engineStep (s : State) : Host.Outcome State Fault Refusal :=
  match decode s.cmd with
  | .ok i => exec i s
  | .error _ => .next (illegalCommand s)

/-- R28: the state an accepted CMD write of `w` leaves, with no host event before the engine's turn. -/
def acceptWord (w : Word) (s : State) : State :=
  acceptCmd w { s with hostQ := [] }

end Sys2Proof.Machine
end

