-- ==== Sys2Proof/Machine/Step.lean ====
section
/-! DEFINITION. One step of the whole machine: the engine's pending command, or the outside's next event (10_state.md R20,
R43; 20_memory.md R61). -/

namespace Sys2Proof.Machine

/-- One step: the engine's turn or the host's. -/
def step (s : State) : Host.Outcome State Fault Refusal :=
  if engineTurn s then engineStep s else hostTurn s

/-- The command word `w` (bits at and above `nbits` 0) accepted and pending, so that the very next step runs it (log 3). -/
def State.withFetchWord (s : State) (nbits w : Nat) : State :=
  acceptWord (BitVec.ofNat 32 (w % 2 ^ nbits)) s

end Sys2Proof.Machine
end

