-- ==== Sys2Proof/Machine/Format.lean ====
section
/-! DEFINITION. The macroblock payload as 30_encoding.md R85 to R87 lay it out: which bits stand at which positions, for a
list of values and a choice of forms for each plane. The encoder and the decoder are not written over this file: the
statements compare both with it. -/

namespace Sys2Proof.Machine

/-! ## What a plane holds (R175, R182, R183) -/

/-- R17, R175: the value is significant before plane `b`: its magnitude has a 1 at some plane above `b`. -/
def significantBefore (b : Nat) (v : Word) : Bool := decide (2 ^ (b + 1) ≤ absCoef v)

/-- R174 `bit`: the magnitude's bit at plane `b`. -/
def planeBit (b : Nat) (v : Word) : Bool := (absCoef v).testBit b

/-- R175: the values not yet significant before plane `b`, in position order. There are sigLen of them. -/
def newcomers (b : Nat) (vs : List Word) : List Word := vs.filter fun v => !significantBefore b v

/-- R182: the literal significance bits of plane `b`. -/
def sigBits (b : Nat) (vs : List Word) : List Bool := (newcomers b vs).map (planeBit b)

/-- R181: the literal sign bits of plane `b`, 1 for negative. There are signLen of them. -/
def signBits (b : Nat) (vs : List Word) : List Bool :=
  ((newcomers b vs).filter (planeBit b)).map fun v => decide (s32 v < 0)

/-- R183: the refinement bits of plane `b`. -/
def refinementBits (b : Nat) (vs : List Word) : List Bool := (vs.filter (significantBefore b)).map (planeBit b)

/-! ## The run-length codes (R176, R177, R180) -/

/-- R55: a `k`-bit field, least significant bit first. -/
def fieldBits (v k : Nat) : List Bool := (List.range k).map v.testBit

/-- R176: the exponent after a full run. -/
def afterFullRun (k : Nat) : Nat := min (k + 1) 32

/-- R176, R177: the significance code of the values to come, after `count` zeros of a run of 2^k. -/
def rlSigCode (b : Nat) : (k count : Nat) → List Word → List Bool
  | k, count, [] => true :: fieldBits count k ++ [true]
  | k, count, v :: vs =>
    if planeBit b v then true :: fieldBits count k ++ decide (s32 v < 0) :: rlSigCode b (k - 1) 0 vs
    else if count + 1 = 2 ^ k then false :: rlSigCode b (afterFullRun k) 0 vs
    else rlSigCode b k (count + 1) vs

/-- R180: the sign code of the signs to come, after `count` ones of a run of 2^k. -/
def rlSignCode : (k count : Nat) → List Bool → List Bool
  | k, count, [] => if count = 0 then [] else false :: fieldBits count k
  | k, count, true :: signs =>
    if count + 1 = 2 ^ k then true :: rlSignCode (afterFullRun k) 0 signs else rlSignCode k (count + 1) signs
  | k, count, false :: signs => false :: fieldBits count k ++ rlSignCode (k - 1) 0 signs

/-- R175, R176: the significance code of plane `b`, from k = 3. -/
def sigCode (b : Nat) (vs : List Word) : List Bool := rlSigCode b 3 0 (newcomers b vs)

/-- R180: the sign code of plane `b`, from k = 0. -/
def signCodeBits (b : Nat) (vs : List Word) : List Bool := rlSignCode 0 0 (signBits b vs)

/-! ## The layout (R85, R86) -/

/-- The form of a plane: the productions of R85. -/
inductive PlaneForm where
  | rlSig         -- Sig with the run-length code
  | rlSign        -- literal Sig, Sign with the run-length code
  | literalSign   -- literal Sig, literal Sign
deriving DecidableEq, Repr

/-- Bits that the format puts at a position and the ones after it. -/
structure Field where
  pos  : Nat
  bits : List Bool
deriving DecidableEq, Repr

/-- A part of a payload: its fields, and the position where the next part starts. -/
structure Layout where
  fields : List Field
  fin    : Nat
deriving DecidableEq, Repr

/-- R86: the fields of the Sig part of plane `b` from `c` on, and where the refinement bits start. -/
def sigLayout (b : Nat) (vs : List Word) (c : Nat) : PlaneForm → Layout
  | .rlSig =>
    ⟨[⟨c, [true]⟩, ⟨c + 1, fieldBits (sigCode b vs).length 15⟩, ⟨c + 16, sigCode b vs⟩],
      alignWordPos (c + 16 + (sigCode b vs).length)⟩
  | .rlSign =>
    let sigStart := alignWordPos (c + 32 + (signCodeBits b vs).length)
    ⟨[⟨c, [false]⟩, ⟨c + 1, fieldBits (sigBits b vs).length 15⟩, ⟨c + 16, [true]⟩,
        ⟨c + 17, fieldBits (signCodeBits b vs).length 15⟩, ⟨c + 32, signCodeBits b vs⟩, ⟨sigStart, sigBits b vs⟩],
      alignWordPos (sigStart + (sigBits b vs).length)⟩
  | .literalSign =>
    let signStart := alignWordPos (c + 32)
    let sigStart := alignWordPos (signStart + (signBits b vs).length)
    ⟨[⟨c, [false]⟩, ⟨c + 1, fieldBits (sigBits b vs).length 15⟩, ⟨c + 16, [false]⟩,
        ⟨c + 17, fieldBits (signBits b vs).length 15⟩, ⟨signStart, signBits b vs⟩, ⟨sigStart, sigBits b vs⟩],
      alignWordPos (sigStart + (sigBits b vs).length)⟩

/-- R86: plane `b` from `c` on, and where the next plane starts. -/
def planeLayout (b : Nat) (vs : List Word) (c : Nat) (form : PlaneForm) : Layout :=
  let sig := sigLayout b vs c form
  ⟨sig.fields ++ [⟨sig.fin, refinementBits b vs⟩], alignWordPos (sig.fin + (refinementBits b vs).length)⟩

/-- R86: the planes `n - 1` down to 0 from `c` on. -/
def planesLayout (form : Nat → PlaneForm) (vs : List Word) : (n c : Nat) → Layout
  | 0, c => ⟨[], c⟩
  | n + 1, c =>
    let first := planeLayout n vs c (form n)
    let rest := planesLayout form vs n first.fin
    ⟨first.fields ++ rest.fields, rest.fin⟩

/-- R86: a payload of `planes` planes, 1 to 32, with the form of each. -/
def payloadLayout (form : Nat → PlaneForm) (planes : Nat) (vs : List Word) : Layout :=
  let body := planesLayout form vs planes 5
  ⟨⟨0, fieldBits (planes % 32) 5⟩ :: body.fields, body.fin⟩

/-- Every field of the layout stands in the bit string; the bits between the fields are free (R211). -/
def carries (bits : BitString) (l : Layout) : Prop :=
  ∀ f ∈ l.fields, ∀ x ∈ f.bits.zipIdx f.pos, BitString.getBit bits x.2 = x.1

/-! ## The forms an encoder chooses, and the forms a payload can have (R178, R181, R87) -/

/-- R178, R180, R181: the form MB_ENCODE gives plane `b`. -/
def chosenForm (favorSpeed : Bool) (vs : List Word) (b : Nat) : PlaneForm :=
  let sigLen := (sigBits b vs).length
  let signLen := (signBits b vs).length
  let codeLen := (sigCode b vs).length
  let signCodeLen := (signCodeBits b vs).length
  if 0 < sigLen ∧ codeLen ≤ 32767 ∧ codeLen < alignWordPos sigLen + alignWordPos signLen + 30 then .rlSig
  else if favorSpeed = false ∧ signCodeLen ≤ 32767 ∧ signCodeLen < signLen then .rlSign
  else .literalSign

/-- R87: the run-length code of a form fits its 15-bit length field. -/
def formFits (vs : List Word) (b : Nat) : PlaneForm → Prop
  | .rlSig => (sigCode b vs).length ≤ 32767
  | .rlSign => (signCodeBits b vs).length ≤ 32767
  | .literalSign => True

end Sys2Proof.Machine
end

