-- ==== Sys2Proof/Machine/HostOps.lean ====
section
/-! DEFINITION. The host operations of 30_encoding.md R80 and the pseudo-instructions of R81, as the host accesses they
expand to. The engine sees only these accesses. -/

namespace Sys2Proof.Machine

/-- R21: the byte offset of a register. -/
def offsetOf : Reg → BitVec 20
  | .id => 0x000
  | .ctrl => 0x004
  | .status => 0x008
  | .errcode => 0x00C
  | .errcmd => 0x010
  | .errarg => 0x014
  | .cmd => 0x018
  | .arg0 => 0x01C
  | .arg1 => 0x020
  | .arg2 => 0x024
  | .result0 => 0x028
  | .result1 => 0x02C
  | .result2 => 0x030
  | .wordlen => 0x034
  | .mbhdr => 0x038
  | .mbpos => 0x03C
  | .nplanes => 0x040
  | .maxabs => 0x044
  | .geomW => 0x048
  | .geomH => 0x04C
  | .geomL => 0x050
  | .bandused => 0x054
  | .capMb => 0x058
  | .capCb => 0x05C
  | .capBand => 0x060

/-- R80 `W <reg>, <value>`. -/
def regWrite (r : Reg) (v : Word) : BusOp := .write 4 (offsetOf r) v

/-- R80 `R <reg>`. -/
def regRead (r : Reg) : BusOp := .read 4 (offsetOf r)

/-- R80 `W CB[i], <value>`. -/
def cbWrite (i : Nat) (v : Word) : BusOp := .write 4 (BitVec.ofNat 20 (0x40000 + 4 * i)) v

/-- R80 `R CB[i]`. -/
def cbRead (i : Nat) : BusOp := .read 4 (BitVec.ofNat 20 (0x40000 + 4 * i))

/-- R80 `R MBV[i]`. -/
def mbvRead (i : Nat) : BusOp := .read 4 (BitVec.ofNat 20 (0x20000 + 4 * i))

/-- R80 `C <mnemonic> [fields]`: the write of the assembled word to CMD. -/
def issue (i : Instr) : BusOp := regWrite .cmd (encode i)

/-- R81 ACK. -/
def ack : BusOp := regWrite .status 0x0000000E#32

/-- R81 WAIT: `polls` reads of STATUS that come while the command is in progress, then the one that finds it completed. -/
def waitEvents (polls : Nat) : List HostEvent :=
  List.replicate polls ⟨true, regRead .status⟩ ++ [⟨false, regRead .status⟩]

/-- R81 RUN: the ARG writes given, the CMD write, WAIT. ARG registers not given are not written. -/
def runEvents (i : Instr) (args : List Word) (polls : Nat) : List HostEvent :=
  (([Reg.arg0, .arg1, .arg2].zip args).map fun a => ⟨false, regWrite a.1 a.2⟩) ++ ⟨false, issue i⟩ :: waitEvents polls

/-- R81 CHECK: after its read of STATUS, whether the host program is in error. -/
def checkFails (s : State) : Bool := s.busData.getLsbD 2

end Sys2Proof.Machine
end

