-- ==== Sys2Proof/Safety.lean ====
section
/-! DEFINITION. What counts as a sound state and a safe run, in the terms the statements use. Each invariant below follows
from the spec's rules; the proofs of the obligations show that every step keeps it. -/

namespace Sys2Proof

/-- R221 "raised by": the ERRCODE values that a command can record. -/
def Instr.errorCodes : Instr → List (BitVec 8)
  | .nop => []
  | .bsSetbit => [0x11#8]
  | .bsClrbit => [0x11#8]
  | .bsGetbit => [0x11#8]
  | .bsSetval _ => [0x11#8]
  | .bsGetval _ => [0x11#8]
  | .bsCmpval _ => [0x11#8]
  | .bsSeek0 => [0x11#8]
  | .bsSeek1 => [0x11#8]
  | .bsAlign => []
  | .bsNwords => []
  | .sbAlloc _ _ => [0x13#8, 0x11#8, 0x01#8]
  | .sbFree _ _ => [0x13#8, 0x11#8]
  | .sbWr _ _ => [0x13#8, 0x11#8, 0x12#8]
  | .sbRd _ _ => [0x13#8, 0x11#8, 0x12#8]
  | .sbQuant _ _ => [0x13#8, 0x11#8, 0x12#8]
  | .sbDequant _ _ => [0x13#8, 0x11#8, 0x12#8]
  | .sbExtract _ _ => [0x13#8, 0x11#8, 0x12#8, 0x14#8]
  | .sbPlace _ _ => [0x13#8, 0x11#8, 0x01#8, 0x15#8]
  | .sbInfo _ _ => [0x13#8, 0x11#8]
  | .wtInit => [0x11#8]
  | .wtFwd _ => [0x13#8, 0x11#8, 0x12#8, 0x01#8]
  | .wtInv _ => [0x13#8, 0x11#8, 0x12#8, 0x01#8]
  | .mbClear => []
  | .mbPut => [0x14#8]
  | .mbGet => [0x15#8]
  | .mbEncode _ _ => [0x11#8]
  | .mbDecode => [0x11#8, 0x03#8, 0x02#8]

end Sys2Proof

namespace Sys2Proof.Machine

/-! ## Control (10_state.md R24 to R28, R43; 60_exceptions.md R221, R226 to R228) -/

/-- R221: the ERRCODE values that the engine produces. -/
def legalErrcodes : List (BitVec 8) := [0x00#8, 0x01#8, 0x02#8, 0x03#8, 0x10#8, 0x11#8, 0x12#8, 0x13#8, 0x14#8, 0x15#8]

/-- BUSY and `pending` agree, no command is pending while ERR = 1 (R28, R228), ERRCODE is a code of R221, and the error
registers are 0 while ERR = 0 (R25, R227). -/
def State.controlSound (s : State) : Bool :=
  decide (s.busy = s.pending) && !(s.pending && s.err) && legalErrcodes.contains s.errcode
    && (s.err || (decide (s.errcode = 0#8) && decide (s.errcmd = 0#32) && decide (s.errarg = 0#32)))

/-! ## Memories (R38, R39, R41) -/

/-- An array of `n` words in canonical form. -/
def Memory.sound (m : Memory) (words : Nat) : Bool := m.wf && m.below (4 * words)

/-- CB, MBV and the temporaries are in canonical form and inside their capacities. -/
def State.memoriesSound (s : State) : Bool :=
  s.cb.sound Config.codeWords && s.mbv.sound Config.mbCap && s.sigt.sound Config.tmpWords
    && s.reft.sound Config.tmpWords && s.sgnt.sound Config.tmpWords

/-! ## Macroblock (R39, R40) -/

/-- Indices from `lo` on, strictly rising. -/
def indicesRise : Nat → List Nat → Bool
  | _, [] => true
  | lo, i :: t => decide (lo ≤ i) && indicesRise (i + 1) t

/-- R39, R40: vpos and vlim are at most MB_CAP, maxAbs at most 2^31, and SF lists indices 0 .. MB_CAP, each once. -/
def State.macroblockSound (s : State) : Bool :=
  decide (s.vpos ≤ Config.mbCap) && decide (s.vlim ≤ Config.mbCap) && decide (s.maxAbs ≤ 2 ^ 31)
    && indicesRise 0 s.sf && s.sf.all (fun i => decide (i ≤ Config.mbCap))

/-! ## Subband store (R42; 41_subband.md R110 to R114; 42_wavelet.md R141) -/

/-- The orientation of a grid cell. -/
def cellOrient (c : Nat) : Orient := orientOf (c % 4)

/-- A stored band is a band of the pyramid (R110) and holds exactly bw*bh coefficients (R113). -/
def State.bandSound (s : State) (b : Nat × List Word) : Bool :=
  decide (b.1 / 4 ≤ s.levels) && (decide (b.1 / 4 ≠ 0) || decide (b.1 % 4 = 0))
    && decide (b.2.length = s.bandSize (b.1 / 4) (cellOrient b.1))

/-- R42: the coefficients of all allocated bands. -/
def totalCoefs (bs : List (Nat × List Word)) : Nat := (bs.map (fun b => b.2.length)).sum

/-- R141: the geometry record is one that WT_INIT stores, or the one of reset. -/
def State.geometrySound (s : State) : Bool :=
  if s.geom then
    decide (1 ≤ u32 s.geomW) && decide (1 ≤ u32 s.geomH) && decide (u32 s.geomW * u32 s.geomH < 2 ^ 32)
      && decide (s.levels ≤ Config.maxLevel)
  else decide (s.bands = []) && decide (s.geomW = 0#32) && decide (s.geomH = 0#32) && decide (s.geomL = 0#5)

/-- R42, R114: the geometry is sound, the cells rise, every band is sound, `used` is the sum of the sizes of the allocated
bands, and it never exceeds BAND_MEM_WORDS. -/
def State.storeSound (s : State) : Bool :=
  s.geometrySound && indicesRise 0 (s.bands.map (fun b => b.1)) && s.bands.all s.bandSound
    && decide (s.used = totalCoefs s.bands) && decide (s.used ≤ s.capBand)

/-- R110: the error of an SB command that names band `(l, o)`, if it names none of the pyramid. -/
def State.bandError (s : State) (l : Nat) (o : Orient) : Option Err :=
  if s.geom = false then some ⟨.notInitialised, 0⟩
  else if s.levels < l then some ⟨.badOperand, l⟩
  else if l = 0 ∧ o ≠ .ll then some ⟨.badOperand, l⟩
  else none

/-- Every band but `(l, o)` is allocated as before and reads as before. -/
def bandsElsewhere (l : Nat) (o : Orient) (s t : State) : Prop :=
  ∀ l' o', ¬ (l' = l ∧ o' = o) → t.alloc l' o' = s.alloc l' o' ∧ t.coefs l' o' = s.coefs l' o'

/-- R133, R168: `m` is the maximum of `m0` and the magnitudes of the values. -/
def isRunningMax (m0 : Nat) (vs : List Word) (m : Nat) : Prop :=
  m0 ≤ m ∧ (∀ v ∈ vs, absCoef v ≤ m) ∧ (m = m0 ∨ ∃ v ∈ vs, m = absCoef v)

/-! ## Safe runs -/

/-- An event of the outside that is no bus error (R51 to R53, R57). -/
def eventLegal : BusOp → Bool
  | .read width addr => accessLegal width addr.toNat && decide (targetAt addr.toNat ≠ .unmapped)
  | .write width addr _ =>
    accessLegal width addr.toNat &&
      (match targetAt addr.toNat with
       | .reg _ => true
       | .hole => true
       | .mbv _ => false
       | .cb _ => true
       | .unmapped => false)
  | .reset => true

/-- No queued event is a bus error. -/
def State.hostLegal (s : State) : Bool := s.hostQ.all (fun e => eventLegal e.op)

/-- A run of `n` steps that neither faults nor refuses. -/
def RunsSafely (s : State) (n : Nat) : Prop := ∃ t, Sys2Proof.core.run n s = .next t

end Sys2Proof.Machine
end

