-- ==== Sys2Proof/Certificates/Slice0/Obligations.lean ====
section
/-! DEFINITION. The statements for the provers. Each docstring names the rule of spec/ it formalises; a clause that is the
model's own choice names its log entry. -/

section

open Sys2Proof Sys2Proof.Machine

/-! ## Decoding and the step -/

/-- O1 (derived from R20, R43, R61, R75, R243; the turn rule is the model's, log 2). The whole step. When a command is
pending and the next outside event is not one made while BUSY = 1, the step is the engine's: `exec` of the command that
CMD decodes to, and nothing more. When nothing is pending, or the next event is made while BUSY = 1, the step is that
event, on the state with the rest of the queue: the host read, the host write or the reset. When nothing is pending and
no event is left, every value is kept. The state that `withFetchWord` makes is one whose step runs the word (log 3). -/
def Obligations.StepRunsDecodedCommand : Prop :=
  (∀ (s : State) (i : Instr), s.pending = true → (∀ e rest, s.hostQ = e :: rest → e.early = false) →
    decode s.cmd = .ok i → step s = exec i s) ∧
  (∀ s : State, s.pending = true → (∀ e rest, s.hostQ = e :: rest → e.early = false) → step s = engineStep s) ∧
  (∀ (s : State) (e : HostEvent) (rest : List HostEvent), s.hostQ = e :: rest → s.pending = false ∨ e.early = true →
    step s = busEvent e.op { s with hostQ := rest }) ∧
  (∀ (s : State) (width : Nat) (a : BitVec 20) (v : Word),
    busEvent (.read width a) s = hostRead width a s ∧ busEvent (.write width a v) s = hostWrite width a v s) ∧
  (∀ s : State, s.pending = false → s.hostQ = [] → step s = .next s) ∧
  (∀ (s : State) (nbits w : Nat) (i : Instr), decodeTableWord nbits w = some i →
    step (s.withFetchWord nbits w) = exec i (s.withFetchWord nbits w))

/-- O2 (R75). A word that matches a row of opcode_table.json runs that row's command with
the fields of the word; every other word ends with
ILLEGAL_COMMAND(0): the error registers, ERR and the completion, nothing else. -/
def Obligations.DecodeRule : Prop :=
  ∀ s : State,
    (∀ r ∈ legalPatterns, s.cmd &&& r.1 = r.2 →
      ∃ i, decode s.cmd = .ok i ∧ i.opcode = r.2.toNat ∧ i.WellFormed ∧ encode i = s.cmd ∧ engineStep s = exec i s) ∧
    ((∀ r ∈ legalPatterns, s.cmd &&& r.1 ≠ r.2) →
      engineStep s = .next
        { s with
          errcode := 0x10#8, errcmd := s.cmd, errarg := 0#32, err := true
          busy := false, done := true, pending := false })

/-- O3 (derived from R71, R72, R74, R80). The decoder reads back every well-formed command from its word. -/
def Obligations.DecodeEncode : Prop := ∀ i : Instr, i.WellFormed → decode (encode i) = .ok i

/-- O4 (derived from R71, R74, R75). A word that decodes is the one word of a well-formed command: no bit is dropped. -/
def Obligations.EncodeDecode : Prop :=
  ∀ (w : Word) (i : Instr), decode w = .ok i → i.WellFormed ∧ encode i = w

/-- O5 (R84). The assembled examples, and the illegal words. -/
def Obligations.AssembledExamples : Prop :=
  decode 0x001E0004#32 = .ok (.bsSetval 15) ∧ decode 0x00400005#32 = .ok (.bsGetval 32) ∧
  decode 0x00006317#32 = .ok (.sbExtract 3 .hh) ∧ decode 0x00002118#32 = .ok (.sbPlace 1 .hl) ∧
  decode 0x00000021#32 = .ok (.wtFwd 0) ∧ decode 0x00000222#32 = .ok (.wtInv 2) ∧
  decode 0x00018033#32 = .ok (.mbEncode true true) ∧ decode 0x00000033#32 = .ok (.mbEncode false false) ∧
  decode 0x00000121#32 = .ok (.wtFwd 1) ∧
  decode 0x00002121#32 = .error .unusedField ∧ decode 0x00800000#32 = .error .reservedBits ∧
  decode 0x0000000B#32 = .error .unassignedOpcode

/-! ## Invariants of every step -/

/-- O6 (derived from R24 to R28, R43, R221, R226 to R228). Every step keeps the control state sound: BUSY agrees with
`pending`, no command is pending while ERR = 1, ERRCODE is a code of R221, the error registers are 0 while ERR = 0. -/
def Obligations.ControlSoundKept : Prop :=
  ∀ s s' : State, s.controlSound = true → step s = .next s' → s'.controlSound = true

/-- O7 (derived from R38, R39, R41, R66, R190). Every step keeps CB, MBV and the temporaries in canonical form and inside
their capacities: no internal access leaves its memory. -/
def Obligations.MemoriesSoundKept : Prop :=
  ∀ s s' : State, s.memoriesSound = true → step s = .next s' → s'.memoriesSound = true

/-- O8 (derived from R39, R40). Every step keeps vpos and vlim at most MB_CAP, maxAbs at most 2^31, and SF a set of
indices 0 .. MB_CAP. -/
def Obligations.MacroblockSoundKept : Prop :=
  ∀ s s' : State, s.macroblockSound = true → step s = .next s' → s'.macroblockSound = true

/-- O9 (derived from R42, R110 to R114, R141). Every step keeps the store sound: the geometry is one WT_INIT accepts, each
allocated band is a band of the pyramid and holds exactly bw*bh coefficients, `used` is their sum, at most
BAND_MEM_WORDS. -/
def Obligations.StoreSoundKept : Prop :=
  ∀ s s' : State, s.storeSound = true → step s = .next s' → s'.storeSound = true

/-- O10 (derived from R47). The reset state is sound in all four ways, whatever BAND_MEM_WORDS is. -/
def Obligations.ResetStateSound : Prop :=
  ∀ cap : Nat, (State.resetWith cap).controlSound = true ∧ (State.resetWith cap).memoriesSound = true ∧
    (State.resetWith cap).macroblockSound = true ∧ (State.resetWith cap).storeSound = true

/-! ## Reset and constants -/

/-- O11 (R47, R250). The platform's reset puts every piece of state at its value in R47's table, and the reset state is
one it leaves as it is. -/
def Obligations.ResetValues : Prop :=
  busEvent .reset State.reset = .next State.reset ∧
  ∀ s : State, ∃ t, busEvent .reset s = .next t ∧
    readReg t .id = 0x50474607#32 ∧ readReg t .ctrl = 0#32 ∧ readReg t .status = 0x20#32 ∧
    readReg t .errcode = 0#32 ∧ readReg t .errcmd = 0#32 ∧ readReg t .errarg = 0#32 ∧ readReg t .cmd = 0#32 ∧
    readReg t .arg0 = 0#32 ∧ readReg t .arg1 = 0#32 ∧ readReg t .arg2 = 0#32 ∧
    readReg t .result0 = 0#32 ∧ readReg t .result1 = 0#32 ∧ readReg t .result2 = 0#32 ∧
    readReg t .wordlen = 0#32 ∧ readReg t .mbhdr = 0#32 ∧ readReg t .nplanes = 0#32 ∧ readReg t .maxabs = 0#32 ∧
    readReg t .geomW = 0#32 ∧ readReg t .geomH = 0#32 ∧ readReg t .geomL = 0#32 ∧ readReg t .bandused = 0#32 ∧
    readReg t .capMb = 0x4000#32 ∧ readReg t .capCb = 0x8000#32 ∧ readReg t .capBand = BitVec.ofNat 32 s.capBand ∧
    (∀ i, t.cb.readWord i = 0#32) ∧ (∀ i, t.mbv.readWord i = 0#32) ∧
    t.vpos = 0 ∧ t.vlim = 0 ∧ t.maxAbs = 0 ∧ t.sf = [] ∧
    (∀ i, t.sigt.readWord i = 0#32) ∧ (∀ i, t.reft.readWord i = 0#32) ∧ (∀ i, t.sgnt.readWord i = 0#32) ∧
    t.geom = false ∧ (∀ l o, t.alloc l o = false) ∧ t.used = 0 ∧ t.pending = false ∧ t.irq = false

/-- O12 (R251). A CTRL write with bit 3 set does what the platform's reset does, whatever the other bits are and whether or
not a command is pending; and it leaves the same state if the pending command took effect just before it (up to the
model's free-value counter, log 5). -/
def Obligations.SoftReset : Prop :=
  ∀ (s : State) (v : Word), v.getLsbD 3 = true →
    hostWrite 4 0x004#20 v s = busEvent .reset s ∧
    (∀ t, hostWrite 4 0x004#20 v s = .next t →
      t.pending = false ∧ t.busy = false ∧ t.done = false ∧ t.err = false ∧ t.irq = false ∧ readReg t .ctrl = 0#32) ∧
    (∀ u, engineStep s = .next u → ∃ t t', hostWrite 4 0x004#20 v s = .next t ∧ hostWrite 4 0x004#20 v u = .next t' ∧
      t' = { t with freeCtr := t'.freeCtr })

/-- O13 (R37). CAP_MB, CAP_CB and CAP_BAND read their constants in every state, BUSY or not, ignore writes, and no step
changes BAND_MEM_WORDS. -/
def Obligations.CapacityConstants : Prop :=
  (∀ s : State, hostRead 4 0x058#20 s = .next { s with busData := 0x4000#32 } ∧
    hostRead 4 0x05C#20 s = .next { s with busData := 0x8000#32 } ∧
    hostRead 4 0x060#20 s = .next { s with busData := BitVec.ofNat 32 s.capBand } ∧
    ∀ v, hostWrite 4 0x058#20 v s = .next s ∧ hostWrite 4 0x05C#20 v s = .next s ∧ hostWrite 4 0x060#20 v s = .next s) ∧
  (∀ s s' : State, step s = .next s' → s'.capBand = s.capBand)

/-! ## Completion, errors and faults -/

/-- O14 (derived from R29, R81, R220, R226, R261). Every command, and every illegal word, completes: BUSY and `pending` are
cleared and DONE is set; and it writes none of ARG0 to ARG2, CMD, CTRL, HAZ, CAP_BAND, nor the outside's queue and read
data. R81's RUN of a command on an idle machine without error writes the arguments given, keeps the others, and makes the
command pending; R81's WAIT, however often it polls, ends with the command completed and BUSY read as 0. -/
def Obligations.CommandsComplete : Prop :=
  (∀ (i : Instr) (s : State), ∃ t, exec i s = .next t ∧
    t.busy = false ∧ t.done = true ∧ t.pending = false ∧
    t.arg0 = s.arg0 ∧ t.arg1 = s.arg1 ∧ t.arg2 = s.arg2 ∧ t.cmd = s.cmd ∧
    t.ieDone = s.ieDone ∧ t.ieErr = s.ieErr ∧ t.favorSpeed = s.favorSpeed ∧
    t.ieDoneTaken = s.ieDoneTaken ∧ t.ieErrTaken = s.ieErrTaken ∧ t.favorTaken = s.favorTaken ∧
    t.haz = s.haz ∧ t.capBand = s.capBand ∧ t.hostQ = s.hostQ ∧ t.busData = s.busData) ∧
  (∀ s : State, ∃ t, engineStep s = .next t ∧ t.busy = false ∧ t.done = true ∧ t.pending = false) ∧
  (∀ (s : State) (i : Instr) (args : List Word) (polls : Nat), s.busy = false → s.err = false → s.pending = false →
    args.length ≤ 3 → s.hostQ = runEvents i args polls →
    Sys2Proof.core.run (args.length + 1) s = .next (acceptCmd (encode i)
      { s with
        arg0 := args.getD 0 s.arg0, arg1 := args.getD 1 s.arg1, arg2 := args.getD 2 s.arg2
        hostQ := waitEvents polls })) ∧
  (∀ (s : State) (polls : Nat) (rest : List HostEvent), s.pending = true → s.hostQ = waitEvents polls ++ rest →
    ∃ t, Sys2Proof.core.run (polls + 2) s = .next t ∧
      t.pending = false ∧ t.done = true ∧ t.busData.getLsbD 0 = false ∧ t.hostQ = rest)

/-- O15 (R230). A failing command changes exactly the error registers, ERR, DONE and BUSY, unless it is an MB_DECODE that
ends in MISSING_DATA or FORMAT_CANNOT_READ: that one also empties the macroblock and leaves MBV and SF open (with the
model's free-value counter, log 6), and no other command raises these two. -/
def Obligations.PreciseErrors : Prop :=
  ∀ s t : State, s.err = false → engineStep s = .next t → t.err = true →
    (t.errcode ≠ 0x02#8 ∧ t.errcode ≠ 0x03#8 ∧
      t = { s with
        errcode := t.errcode, errcmd := s.cmd, errarg := t.errarg, err := true
        busy := false, done := true, pending := false }) ∨
    ((t.errcode = 0x02#8 ∨ t.errcode = 0x03#8) ∧ decode s.cmd = .ok .mbDecode ∧
      t = { s with
        mbv := t.mbv, sf := t.sf, vpos := 0, vlim := 0, maxAbs := 0, freeCtr := t.freeCtr
        errcode := t.errcode, errcmd := s.cmd, errarg := t.errarg, err := true
        busy := false, done := true, pending := false })

/-- O16 (R221, R222). What raising an error records, and the code of each error name; a command that fails records its own
word and a code that R221 lists for it, an illegal word records ILLEGAL_COMMAND with 0, and neither writes a RESULT
register, WORDLEN, MBHDR or NPLANES. -/
def Obligations.ErrorRecording : Prop :=
  (∀ (e : Err) (s : State), raiseErr e s =
    { s with
      errcode := e.code.code, errcmd := s.cmd, errarg := BitVec.ofNat 32 e.info, err := true
      busy := false, done := true, pending := false }) ∧
  ErrCode.insufficientMemory.code = 0x01#8 ∧ ErrCode.missingData.code = 0x02#8 ∧
  ErrCode.formatCannotRead.code = 0x03#8 ∧ ErrCode.illegalCommand.code = 0x10#8 ∧ ErrCode.badOperand.code = 0x11#8 ∧
  ErrCode.notAllocated.code = 0x12#8 ∧ ErrCode.notInitialised.code = 0x13#8 ∧ ErrCode.mbOverflow.code = 0x14#8 ∧
  ErrCode.mbUnderflow.code = 0x15#8 ∧
  ∀ s t : State, s.err = false → engineStep s = .next t → t.err = true →
    t.errcmd = s.cmd ∧
    (∀ i, decode s.cmd = .ok i → t.errcode ∈ i.errorCodes) ∧
    ((∀ i, decode s.cmd ≠ .ok i) → t.errcode = 0x10#8 ∧ t.errarg = 0#32) ∧
    t.result0 = s.result0 ∧ t.result1 = s.result1 ∧ t.result2 = s.result2 ∧
    t.wordlen = s.wordlen ∧ t.mbhdr = s.mbhdr ∧ t.nplanes = s.nplanes

/-- O17 (derived from R52, R53, R57). A step faults exactly when it is the outside's turn and the next event is a bus
error (log 7); no step refuses. -/
def Obligations.FaultsAreBusErrors : Prop :=
  ∀ s : State,
    ((∃ f, step s = .fault f) ↔
      engineTurn s = false ∧ ∃ e rest, s.hostQ = e :: rest ∧ eventLegal e.op = false) ∧
    ∀ r, step s ≠ .refused r

/-- O18 (derived from R53, R260, R261). A machine whose outside makes no bus error runs safely for ever. -/
def Obligations.LegalHostRunsSafely : Prop :=
  ∀ (s : State) (n : Nat), s.hostLegal = true → RunsSafely s n

/-! ## Host accesses -/

/-- O19 (R28). A CMD write is accepted when BUSY = 0 and ERR = 0, and refused otherwise; a read while BUSY = 0 returns the
last accepted word; its reset value is 0. (Which enables an accepted write takes is left to CtrlWrite, the
read while BUSY = 1 to BusyRefusals.) -/
def Obligations.CmdWrite : Prop :=
  (∀ (s : State) (v : Word), s.busy = false → s.err = false →
    ∃ t, hostWrite 4 0x018#20 v s = .next t ∧
      t =
        { s with
          cmd := v, busy := true, pending := true
          ieDoneTaken := t.ieDoneTaken, ieErrTaken := t.ieErrTaken, favorTaken := t.favorTaken }) ∧
  (∀ (s : State) (v : Word), s.busy = true ∨ s.err = true →
    hostWrite 4 0x018#20 v s = .next { s with haz := true }) ∧
  (∀ s : State, s.busy = false → hostRead 4 0x018#20 s = .next { s with busData := s.cmd }) ∧ State.reset.cmd = 0#32

/-- O20 (derived from R24, R81, R227; log 9). A STATUS write clears DONE, ERR and HAZ where it has a 1, and with ERR the three
error registers; it changes nothing else, BUSY or not. R81's ACK is the write that clears all of them. -/
def Obligations.StatusWrite : Prop :=
  (∀ (s : State) (v : Word), hostWrite 4 0x008#20 v s = .next
    { s with
      done := s.done && !v.getLsbD 1
      err := s.err && !v.getLsbD 2
      haz := s.haz && !v.getLsbD 3
      errcode := if v.getLsbD 2 then 0#8 else s.errcode
      errcmd := if v.getLsbD 2 then 0#32 else s.errcmd
      errarg := if v.getLsbD 2 then 0#32 else s.errarg }) ∧
  (∀ s : State, busEvent ack s = .next
    { s with done := false, err := false, haz := false, errcode := 0#8, errcmd := 0#32, errarg := 0#32 })

/-- O21 (R227). ERR and the error registers keep their values over every step that is not a reset or a STATUS write with
bit 2 set, and such a STATUS write sets all four to 0. (No command is pending while ERR = 1: ControlSoundKept.) -/
def Obligations.ErrorsSticky : Prop :=
  (∀ s s' : State, s.err = true → s.pending = false → step s = .next s' →
    (s'.err = true ∧ s'.errcode = s.errcode ∧ s'.errcmd = s.errcmd ∧ s'.errarg = s.errarg ∧ s'.pending = false) ∨
    (∃ e rest, s.hostQ = e :: rest ∧
      (e.op = .reset ∨ (∃ v, e.op = .write 4 0x004#20 v ∧ v.getLsbD 3 = true) ∨
        (∃ v, e.op = .write 4 0x008#20 v ∧ v.getLsbD 2 = true)))) ∧
  (∀ (s : State) (v : Word), s.err = true → v.getLsbD 2 = true → ∃ t, hostWrite 4 0x008#20 v s = .next t ∧
    t.err = false ∧ t.errcode = 0#8 ∧ t.errcmd = 0#32 ∧ t.errarg = 0#32)

/-- O22 (derived from R60, R231; log 8). While BUSY = 1 a write to CMD, ARG0 to ARG2, WORDLEN, MBHDR or the CB window sets
HAZ and changes nothing else; ID, CTRL and the three CAP_* registers still read their values. So do CMD and ARG0 to
ARG2, which is the model's choice (log 8). -/
def Obligations.BusyRefusals : Prop :=
  ∀ s : State, s.busy = true →
    (∀ a ∈ [0x018#20, 0x01C#20, 0x020#20, 0x024#20, 0x034#20, 0x038#20], ∀ v,
      hostWrite 4 a v s = .next { s with haz := true }) ∧
    (∀ i v, i < 32768 → hostWrite 4 (BitVec.ofNat 20 (0x40000 + 4 * i)) v s = .next { s with haz := true }) ∧
    hostRead 4 0x000#20 s = .next { s with busData := 0x50474607#32 } ∧
    hostRead 4 0x004#20 s = .next { s with busData := s.ctrlWord } ∧
    hostRead 4 0x058#20 s = .next { s with busData := 0x4000#32 } ∧
    hostRead 4 0x05C#20 s = .next { s with busData := 0x8000#32 } ∧
    hostRead 4 0x060#20 s = .next { s with busData := BitVec.ofNat 32 s.capBand } ∧
    hostRead 4 0x018#20 s = .next { s with busData := s.cmd } ∧
    hostRead 4 0x01C#20 s = .next { s with busData := s.arg0 } ∧
    hostRead 4 0x020#20 s = .next { s with busData := s.arg1 } ∧
    hostRead 4 0x024#20 s = .next { s with busData := s.arg2 }

/-- O23 (derived from R21, R29, R31, R32, R48, R228, R257; log 8). Register writes while BUSY = 0, whatever ERR is: ARG0 to ARG2
take the word, WORDLEN and MBHDR its low 16 bits. A write to a read-only register or to an offset without a register
changes nothing, BUSY or not, and such an offset reads 0 (while BUSY = 1 by the model's choice, log 8). -/
def Obligations.RegisterWrites : Prop :=
  (∀ (s : State) (v : Word), s.busy = false →
    hostWrite 4 0x01C#20 v s = .next { s with arg0 := v } ∧
    hostWrite 4 0x020#20 v s = .next { s with arg1 := v } ∧
    hostWrite 4 0x024#20 v s = .next { s with arg2 := v } ∧
    hostWrite 4 0x034#20 v s = .next { s with wordlen := v.setWidth 16 } ∧
    hostWrite 4 0x038#20 v s = .next { s with mbhdr := v.setWidth 16 }) ∧
  (∀ (s : State) (v : Word), ∀ a ∈ [0x000#20, 0x00C#20, 0x010#20, 0x014#20, 0x028#20, 0x02C#20, 0x030#20, 0x03C#20,
      0x040#20, 0x044#20, 0x048#20, 0x04C#20, 0x050#20, 0x054#20, 0x058#20, 0x05C#20, 0x060#20],
    hostWrite 4 a v s = .next s) ∧
  (∀ (s : State) (v : Word) (a : BitVec 20), 0x064 ≤ a.toNat → a.toNat ≤ 0xFFC → a.toNat % 4 = 0 →
    hostWrite 4 a v s = .next s ∧ hostRead 4 a s = .next { s with busData := 0#32 })

/-- O24 (derived from R23, R233; log 20, log 21). A CTRL write without SOFT_RESET sets the three enables, BUSY or not, and
the irq level follows the new ones at once. They are taken for the next command: while BUSY = 0 at the write, while
BUSY = 1 at the acceptance of the next CMD write, and the command in progress does exactly what it would have done
without the write. CTRL reads the three bits, and 0 elsewhere. -/
def Obligations.CtrlWrite : Prop :=
  (∀ (s : State) (v : Word), v.getLsbD 3 = false → s.busy = false →
    ∃ t, hostWrite 4 0x004#20 v s = .next t ∧
      t = { s with
        ieDone := v.getLsbD 0, ieErr := v.getLsbD 1, favorSpeed := v.getLsbD 2
        ieDoneTaken := v.getLsbD 0, ieErrTaken := v.getLsbD 1, favorTaken := v.getLsbD 2 } ∧
      t.irq = ((s.done && v.getLsbD 0) || (s.err && v.getLsbD 1))) ∧
  (∀ (s : State) (v : Word), v.getLsbD 3 = false → s.busy = true →
    ∃ t, hostWrite 4 0x004#20 v s = .next t ∧
      t = { s with ieDone := v.getLsbD 0, ieErr := v.getLsbD 1, favorSpeed := v.getLsbD 2 } ∧
      t.irq = ((s.done && v.getLsbD 0) || (s.err && v.getLsbD 1)) ∧
      ∀ u, engineStep s = .next u →
        engineStep t = .next { u with ieDone := v.getLsbD 0, ieErr := v.getLsbD 1, favorSpeed := v.getLsbD 2 }) ∧
  (∀ (s : State) (v : Word), s.busy = false → s.err = false →
    ∃ t, hostWrite 4 0x018#20 v s = .next t ∧
      t.ieDoneTaken = s.ieDone ∧ t.ieErrTaken = s.ieErr ∧ t.favorTaken = s.favorSpeed) ∧
  (∀ s : State, ∃ t, hostRead 4 0x004#20 s = .next t ∧ t.busData.getLsbD 0 = s.ieDone ∧ t.busData.getLsbD 1 = s.ieErr ∧
    t.busData.getLsbD 2 = s.favorSpeed ∧ ∀ j, 3 ≤ j → t.busData.getLsbD j = false)

/-- O25 (derived from R59, R60; log 4, log 5). A host read changes nothing of the engine, only the model's read data and
free-value counter; while BUSY = 0 it draws no free value and reading again returns the same word. -/
def Obligations.ReadsChangeNothing : Prop :=
  ∀ (s t : State) (width : Nat) (a : BitVec 20), hostRead width a s = .next t →
    t = { s with busData := t.busData, freeCtr := t.freeCtr } ∧
    (s.busy = false → t.freeCtr = s.freeCtr ∧ hostRead width a t = .next t)

/-- O26 (derived from R24, R60, R233). The STATUS word: BUSY, DONE, ERR, HAZ, GEOM and the irq level in every state, MBFULL and MBEMPTY while BUSY = 0, and 0 in bits 31:8. -/
def Obligations.StatusRead : Prop :=
  ∀ s : State, ∃ t, hostRead 4 0x008#20 s = .next t ∧
    t.busData.getLsbD 0 = s.busy ∧ t.busData.getLsbD 1 = s.done ∧ t.busData.getLsbD 2 = s.err ∧
    t.busData.getLsbD 3 = s.haz ∧ t.busData.getLsbD 6 = s.geom ∧
    t.busData.getLsbD 7 = ((s.done && s.ieDone) || (s.err && s.ieErr)) ∧
    (s.busy = false → t.busData.getLsbD 4 = decide (s.vpos = 16384) ∧ t.busData.getLsbD 5 = decide (s.vlim ≤ s.vpos)) ∧
    ∀ j, 8 ≤ j → t.busData.getLsbD j = false

/-- O27 (derived from R22, R25 to R27, R30 to R36, R42). What the other registers read while BUSY = 0 (BANDUSED and MBPOS as the model
packs them, log 14). -/
def Obligations.RegisterReads : Prop :=
  ∀ s : State, s.busy = false →
    hostRead 4 0x000#20 s = .next { s with busData := 0x50474607#32 } ∧
    hostRead 4 0x00C#20 s = .next { s with busData := s.errcode.setWidth 32 } ∧
    hostRead 4 0x010#20 s = .next { s with busData := s.errcmd } ∧
    hostRead 4 0x014#20 s = .next { s with busData := s.errarg } ∧
    hostRead 4 0x01C#20 s = .next { s with busData := s.arg0 } ∧
    hostRead 4 0x020#20 s = .next { s with busData := s.arg1 } ∧
    hostRead 4 0x024#20 s = .next { s with busData := s.arg2 } ∧
    hostRead 4 0x028#20 s = .next { s with busData := s.result0 } ∧
    hostRead 4 0x02C#20 s = .next { s with busData := s.result1 } ∧
    hostRead 4 0x030#20 s = .next { s with busData := s.result2 } ∧
    hostRead 4 0x034#20 s = .next { s with busData := s.wordlen.setWidth 32 } ∧
    hostRead 4 0x038#20 s = .next { s with busData := s.mbhdr.setWidth 32 } ∧
    hostRead 4 0x03C#20 s =
      .next { s with busData := BitVec.ofNat 32 (s.vpos % 2 ^ 16 + 2 ^ 16 * (s.vlim % 2 ^ 16)) } ∧
    hostRead 4 0x040#20 s = .next { s with busData := s.nplanes.setWidth 32 } ∧
    hostRead 4 0x044#20 s = .next { s with busData := BitVec.ofNat 32 s.maxAbs } ∧
    hostRead 4 0x048#20 s = .next { s with busData := s.geomW } ∧
    hostRead 4 0x04C#20 s = .next { s with busData := s.geomH } ∧
    hostRead 4 0x050#20 s = .next { s with busData := s.geomL.setWidth 32 } ∧
    hostRead 4 0x054#20 s = .next { s with busData := BitVec.ofNat 32 s.used }

/-- O28 (derived from R51, R54, R55, R57, R92, R108). The windows while BUSY = 0: a write of CB word `i` stores it and leaves every
other word and byte, a read returns it; an MBV read returns the coefficient's pattern, an MBV write is a bus error. The
views of an array agree: byte lane `k` of word `i` is the byte at 4 i + k, bit `j` of word `i` is the bit at position
32 i + j, and the bit string that MB_DECODE reads has CB's bit at every position. -/
def Obligations.WindowAccess : Prop :=
  (∀ (s : State) (i : Nat), s.busy = false → i < 32768 →
    hostRead 4 (BitVec.ofNat 20 (0x40000 + 4 * i)) s = .next { s with busData := s.cb.readWord i } ∧
    ∀ v, ∃ t, hostWrite 4 (BitVec.ofNat 20 (0x40000 + 4 * i)) v s = .next t ∧ t = { s with cb := t.cb } ∧
      t.cb.readWord i = v ∧ (∀ j, j ≠ i → t.cb.readWord j = s.cb.readWord j) ∧
      (∀ a, ¬ (4 * i ≤ a ∧ a < 4 * i + 4) → t.cb.read a = s.cb.read a)) ∧
  (∀ (s : State) (i : Nat), i < 16384 →
    (s.busy = false →
      hostRead 4 (BitVec.ofNat 20 (0x20000 + 4 * i)) s = .next { s with busData := s.mbv.readWord i }) ∧
    ∀ v, hostWrite 4 (BitVec.ofNat 20 (0x20000 + 4 * i)) v s = .fault .busError) ∧
  (∀ (m : Memory) (i : Nat),
    (∀ k, k < 4 → (m.readWord i).extractLsb' (8 * k) 8 = m.read (4 * i + k)) ∧
    (∀ j, j < 32 → (m.readWord i).getLsbD j = m.getBit (32 * i + j))) ∧
  (∀ s : State, s.memoriesSound = true → ∀ p, BitString.getBit s.cb.toBits p = s.cb.getBit p)

/-- O29 (derived from R51, R52, R53). An access that is not one aligned 32-bit word, or is to an unmapped address, is a bus
error, in every state (log 7). -/
def Obligations.BusErrors : Prop :=
  ∀ (s : State) (width : Nat) (a : BitVec 20) (v : Word),
    (width ≠ 4 ∨ a.toNat % 4 ≠ 0 ∨ (0x01000 ≤ a.toNat ∧ a.toNat < 0x20000) ∨
      (0x30000 ≤ a.toNat ∧ a.toNat < 0x40000) ∨ 0x60000 ≤ a.toNat) →
    hostRead width a s = .fault .busError ∧ hostWrite width a v s = .fault .busError

/-! ## Control and bit accessor commands -/

/-- O30 (R83). NOP only completes, and its one word is 0. -/
def Obligations.NopResult : Prop :=
  (∀ s : State, exec .nop s = .next { s with busy := false, done := true, pending := false }) ∧
  (∀ w : Word, decode w = .ok .nop ↔ w = 0#32)

/-- O31 (R98, R99). BS_SETBIT and BS_CLRBIT write one bit of CB and no other, or raise BAD_OPERAND(pos). -/
def Obligations.BsPutBitResult : Prop :=
  ∀ (s : State) (b : Bool),
    (s.arg0.toNat + 1 ≤ 1048576 → ∃ t, exec (if b then .bsSetbit else .bsClrbit) s = .next t ∧
      t = complete { s with cb := t.cb } ∧
      (∀ p, t.cb.getBit p = if p = s.arg0.toNat then b else s.cb.getBit p) ∧
      (∀ a, a ≠ s.arg0.toNat / 8 → t.cb.read a = s.cb.read a)) ∧
    (1048576 < s.arg0.toNat + 1 →
      exec (if b then .bsSetbit else .bsClrbit) s = .next (raiseErr ⟨.badOperand, s.arg0.toNat⟩ s))

/-- O32 (R100). BS_GETBIT reads one bit of CB into RESULT0, or raises BAD_OPERAND(pos); CB is unchanged. -/
def Obligations.BsGetbitResult : Prop :=
  ∀ s : State,
    (s.arg0.toNat + 1 ≤ 1048576 → exec .bsGetbit s =
      .next (complete { s with result0 := if s.cb.getBit s.arg0.toNat then 1#32 else 0#32 })) ∧
    (1048576 < s.arg0.toNat + 1 → exec .bsGetbit s = .next (raiseErr ⟨.badOperand, s.arg0.toNat⟩ s))

/-- O33 (R101). BS_SETVAL writes the k low bits of ARG1 at pos .. pos + k - 1 and no other bit or byte of CB. -/
def Obligations.BsSetvalResult : Prop :=
  ∀ (s : State) (k : Nat),
    (¬ (1 ≤ k ∧ k ≤ 32) → exec (.bsSetval k) s = .next (raiseErr ⟨.badOperand, k⟩ s)) ∧
    (1 ≤ k ∧ k ≤ 32 → 1048576 < s.arg0.toNat + k →
      exec (.bsSetval k) s = .next (raiseErr ⟨.badOperand, s.arg0.toNat⟩ s)) ∧
    (1 ≤ k ∧ k ≤ 32 → s.arg0.toNat + k ≤ 1048576 → ∃ t, exec (.bsSetval k) s = .next t ∧
      t = complete { s with cb := t.cb } ∧
      (∀ p, t.cb.getBit p = if s.arg0.toNat ≤ p ∧ p < s.arg0.toNat + k then s.arg1.getLsbD (p - s.arg0.toNat)
        else s.cb.getBit p) ∧
      (∀ a, ¬ (s.arg0.toNat / 8 ≤ a ∧ a ≤ (s.arg0.toNat + k - 1) / 8) → t.cb.read a = s.cb.read a))

/-- O34 (R102, R103). BS_GETVAL reads the k bits from pos into RESULT0, zero-extended; BS_CMPVAL compares them with the k
low bits of ARG1; the checks of both; CB is unchanged. -/
def Obligations.BsGetvalCmpvalResult : Prop :=
  ∀ (s : State) (k : Nat),
    (¬ (1 ≤ k ∧ k ≤ 32) → exec (.bsGetval k) s = .next (raiseErr ⟨.badOperand, k⟩ s) ∧
      exec (.bsCmpval k) s = .next (raiseErr ⟨.badOperand, k⟩ s)) ∧
    (1 ≤ k ∧ k ≤ 32 → 1048576 < s.arg0.toNat + k →
      exec (.bsGetval k) s = .next (raiseErr ⟨.badOperand, s.arg0.toNat⟩ s) ∧
      exec (.bsCmpval k) s = .next (raiseErr ⟨.badOperand, s.arg0.toNat⟩ s)) ∧
    (1 ≤ k ∧ k ≤ 32 → s.arg0.toNat + k ≤ 1048576 →
      (∃ x : Word, exec (.bsGetval k) s = .next (complete { s with result0 := x }) ∧
        ∀ i, x.getLsbD i = (decide (i < k) && s.cb.getBit (s.arg0.toNat + i))) ∧
      (∃ x : Word, exec (.bsCmpval k) s = .next (complete { s with result0 := x }) ∧ (x = 0#32 ∨ x = 1#32) ∧
        (x = 1#32 ↔ ∀ i, i < k → s.cb.getBit (s.arg0.toNat + i) = s.arg1.getLsbD i)))

/-- O35 (R104, R105). BS_SEEK0 and BS_SEEK1 answer the length of the run of equal bits from pos, capped at len, or raise
BAD_OPERAND(pos); CB is unchanged. -/
def Obligations.BsSeekResult : Prop :=
  ∀ (s : State) (b : Bool),
    (s.arg0.toNat + s.arg1.toNat ≤ 1048576 → ∃ c,
      exec (if b then .bsSeek1 else .bsSeek0) s = .next (complete { s with result0 := BitVec.ofNat 32 c }) ∧
      c ≤ s.arg1.toNat ∧ (∀ j, j < c → s.cb.getBit (s.arg0.toNat + j) = b) ∧
      (c < s.arg1.toNat → s.cb.getBit (s.arg0.toNat + c) = !b)) ∧
    (1048576 < s.arg0.toNat + s.arg1.toNat →
      exec (if b then .bsSeek1 else .bsSeek0) s = .next (raiseErr ⟨.badOperand, s.arg0.toNat⟩ s))

/-- O36 (R106, R107). BS_ALIGN and BS_NWORDS are 32-bit unsigned arithmetic on ARG0, with the wrap; they check nothing. -/
def Obligations.BsAlignNwordsResult : Prop :=
  ∀ s : State,
    exec .bsAlign s = .next (complete { s with result0 := ((s.arg0 + 31#32) >>> 5) <<< 5 }) ∧
    exec .bsNwords s = .next (complete { s with result0 := (s.arg0 + 31#32) >>> 5 })

/-! ## Subband store commands -/

/-- O37 (derived from R111, R156). The band sizes: the parent LL band's ceiling-half where the filter is low-pass,
floor-half where it is high-pass (R111); and the LL band of level l has the ceiling of W / 2^l by H / 2^l, which R156
derives. -/
def Obligations.BandGeometry : Prop :=
  ∀ s : State,
    s.bw 0 .ll = s.geomW.toNat ∧ s.bh 0 .ll = s.geomH.toNat ∧
    (∀ l, s.bw (l + 1) .ll = (s.bw l .ll + 1) / 2 ∧ s.bh (l + 1) .ll = (s.bh l .ll + 1) / 2 ∧
      s.bw (l + 1) .hl = s.bw l .ll / 2 ∧ s.bh (l + 1) .hl = (s.bh l .ll + 1) / 2 ∧
      s.bw (l + 1) .lh = (s.bw l .ll + 1) / 2 ∧ s.bh (l + 1) .lh = s.bh l .ll / 2 ∧
      s.bw (l + 1) .hh = s.bw l .ll / 2 ∧ s.bh (l + 1) .hh = s.bh l .ll / 2) ∧
    (∀ l, s.bw l .ll = (s.geomW.toNat + 2 ^ l - 1) / 2 ^ l ∧ s.bh l .ll = (s.geomH.toNat + 2 ^ l - 1) / 2 ^ l)

/-- O38 (R110). The checks that all nine SB commands make first, in R110's order. -/
def Obligations.SbBandChecks : Prop :=
  ∀ (s : State) (l : Nat) (o : Orient),
    ∀ i ∈ [Instr.sbAlloc l o, .sbFree l o, .sbWr l o, .sbRd l o, .sbQuant l o, .sbDequant l o, .sbExtract l o,
      .sbPlace l o, .sbInfo l o],
      (s.geom = false → exec i s = .next (raiseErr ⟨.notInitialised, 0⟩ s)) ∧
      (s.geom = true → s.geomL.toNat < l → exec i s = .next (raiseErr ⟨.badOperand, l⟩ s)) ∧
      (s.geom = true → l = 0 → o ≠ .ll → exec i s = .next (raiseErr ⟨.badOperand, 0⟩ s))

/-- O39 (R115, R116). SB_ALLOC allocates or zero-fills one band, if there is room; SB_FREE frees it; every other band keeps
its allocation and its coefficients. -/
def Obligations.SbAllocFreeResult : Prop :=
  ∀ (s : State) (l : Nat) (o : Orient),
    (∀ e, s.bandError l o = some e →
      exec (.sbAlloc l o) s = .next (raiseErr e s) ∧ exec (.sbFree l o) s = .next (raiseErr e s)) ∧
    (s.bandError l o = none → s.alloc l o = true ∨ s.used + s.bw l o * s.bh l o ≤ s.capBand →
      ∃ t, exec (.sbAlloc l o) s = .next t ∧ t = complete { s with bands := t.bands, used := t.used } ∧
        t.alloc l o = true ∧ t.coefs l o = List.replicate (s.bw l o * s.bh l o) 0#32 ∧
        t.used = (if s.alloc l o then s.used else s.used + s.bw l o * s.bh l o) ∧ bandsElsewhere l o s t) ∧
    (s.bandError l o = none → s.alloc l o = false → s.capBand < s.used + s.bw l o * s.bh l o →
      exec (.sbAlloc l o) s = .next (raiseErr ⟨.insufficientMemory, s.bw l o * s.bh l o⟩ s)) ∧
    (s.bandError l o = none →
      ∃ t, exec (.sbFree l o) s = .next t ∧ t = complete { s with bands := t.bands, used := t.used } ∧
        t.alloc l o = false ∧ t.used = (if s.alloc l o then s.used - s.bw l o * s.bh l o else s.used) ∧
        bandsElsewhere l o s t)

/-- O40 (R117, R118). SB_WR writes one coefficient of a band (which holds bw*bh of them, R113) and leaves every other one;
SB_RD reads one into RESULT0; the checks of both, in order. -/
def Obligations.SbWrRdResult : Prop :=
  ∀ (s : State) (l : Nat) (o : Orient),
    (∀ e, s.bandError l o = some e →
      exec (.sbWr l o) s = .next (raiseErr e s) ∧ exec (.sbRd l o) s = .next (raiseErr e s)) ∧
    (s.bandError l o = none → s.bw l o * s.bh l o ≤ s.arg0.toNat →
      exec (.sbWr l o) s = .next (raiseErr ⟨.badOperand, s.arg0.toNat⟩ s) ∧
      exec (.sbRd l o) s = .next (raiseErr ⟨.badOperand, s.arg0.toNat⟩ s)) ∧
    (s.bandError l o = none → s.arg0.toNat < s.bw l o * s.bh l o → s.alloc l o = false →
      exec (.sbWr l o) s = .next (raiseErr ⟨.notAllocated, l⟩ s) ∧
      exec (.sbRd l o) s = .next (raiseErr ⟨.notAllocated, l⟩ s)) ∧
    (s.bandError l o = none → s.arg0.toNat < s.bw l o * s.bh l o → s.alloc l o = true →
      exec (.sbRd l o) s = .next (complete { s with result0 := s.coef l o s.arg0.toNat })) ∧
    (s.bandError l o = none → s.arg0.toNat < s.bw l o * s.bh l o → s.alloc l o = true →
      (s.coefs l o).length = s.bw l o * s.bh l o →
      ∃ t, exec (.sbWr l o) s = .next t ∧ t = complete { s with bands := t.bands } ∧
        t.alloc l o = true ∧ (t.coefs l o).length = (s.coefs l o).length ∧
        (∀ i, t.coef l o i = if i = s.arg0.toNat then s.arg1 else s.coef l o i) ∧ bandsElsewhere l o s t)

/-- O41 (R119). SB_INFO reports the band's width, height and allocation. -/
def Obligations.SbInfoResult : Prop :=
  ∀ (s : State) (l : Nat) (o : Orient),
    (∀ e, s.bandError l o = some e → exec (.sbInfo l o) s = .next (raiseErr e s)) ∧
    (s.bandError l o = none → exec (.sbInfo l o) s = .next (complete
      { s with
        result0 := BitVec.ofNat 32 (s.bw l o), result1 := BitVec.ofNat 32 (s.bh l o)
        result2 := if s.alloc l o then 1#32 else 0#32 }))

/-- O42 (R123, R125). SB_QUANT and SB_DEQUANT map every coefficient of one band by the quantizer or the dequantizer with
p = q - off(l,o), or change no coefficient when p ≤ 0; no other band changes; the checks of both, in order. -/
def Obligations.SbQuantDequantResult : Prop :=
  ∀ (s : State) (l : Nat) (o : Orient) (up : Bool),
    let i : Instr := if up then .sbDequant l o else .sbQuant l o
    let p : Int := (s.arg0.toNat : Int) - (match o with | .ll => (l : Int) + 1 | .hl => l | .lh => l | .hh => (l : Int) - 1)
    (∀ e, s.bandError l o = some e → exec i s = .next (raiseErr e s)) ∧
    (s.bandError l o = none → 31 < s.arg0.toNat → exec i s = .next (raiseErr ⟨.badOperand, s.arg0.toNat⟩ s)) ∧
    (s.bandError l o = none → s.arg0.toNat ≤ 31 → s.alloc l o = false →
      exec i s = .next (raiseErr ⟨.notAllocated, l⟩ s)) ∧
    (s.bandError l o = none → s.arg0.toNat ≤ 31 → s.alloc l o = true →
      ∃ t, exec i s = .next t ∧ t = complete { s with bands := t.bands } ∧ t.alloc l o = true ∧
        t.coefs l o =
          (if p ≤ 0 then s.coefs l o
           else if up then (s.coefs l o).map (dequantCoef p.toNat)
           else (s.coefs l o).map (quantCoef o p.toNat)) ∧
        bandsElsewhere l o s t)

/-- O43 (R121, R122, R124). The quantizer and the dequantizer of one coefficient, as integer formulas: no result of the
quantizer wraps. -/
def Obligations.QuantizerFormulas : Prop :=
  ∀ (x : Word) (p : Nat), 1 ≤ p →
    let r : Int := (((x.toInt.natAbs / 2 ^ (p - 1) + 1) / 2 : Nat) : Int)
    let T : Int := ((2 ^ p * 7 / 5 : Nat) : Int)
    (quantCoef .ll p x).toInt = (if 0 ≤ x.toInt then r else -r) ∧
    (∀ o, o ≠ .ll → (quantCoef o p x).toInt = if T < x.toInt then r else if x.toInt < -T then -r else 0) ∧
    dequantCoef p x = BitVec.ofInt 32 (x.toInt * 2 ^ p) ∧
    deadZone p = 2 ^ p * 7 / 5

/-- O44 (derived from R127). The reconstruction error: dequantizing a quantized coefficient differs from it by at most half
the step for LL, and by at most the larger of the dead zone and half the step for the other bands. R127's range is
stated for LL; it is assumed for both here, since near the ends of the 32-bit range the left shift wraps. -/
def Obligations.ReconstructionError : Prop :=
  ∀ (x : Word) (p : Nat), 1 ≤ p → p ≤ 31 → (x.toInt.natAbs : Int) < 2 ^ 31 - 2 ^ (p - 1) →
    |(dequantCoef p (quantCoef .ll p x)).toInt - x.toInt| ≤ 2 ^ (p - 1) ∧
    ∀ o, o ≠ .ll →
      |(dequantCoef p (quantCoef o p x)).toInt - x.toInt| ≤ max (((2 ^ p * 7 / 5 : Nat) : Int)) (2 ^ (p - 1))

/-- O45 (R131, R132). The scan list, entry by entry over its four parts: full blocks, right partial blocks, bottom partial
blocks, corner. It is a permutation of the band's indices, and row-major order when w ≤ 8. -/
def Obligations.ScanOrder : Prop :=
  ∀ w h : Nat,
    (∀ bi bj y x, bi < h / 8 → bj < w / 8 → y < 8 → x < 8 →
      (scan w h)[bi * (8 * w) + bj * 64 + (y * 8 + x)]? = some ((8 * bi + y) * w + 8 * bj + x)) ∧
    (∀ bi y x, bi < h / 8 → y < 8 → x < w % 8 →
      (scan w h)[bi * (8 * w) + w / 8 * 64 + (y * (w % 8) + x)]? = some ((8 * bi + y) * w + 8 * (w / 8) + x)) ∧
    (∀ bj y x, bj < w / 8 → y < h % 8 → x < 8 →
      (scan w h)[h / 8 * (8 * w) + bj * (8 * (h % 8)) + (y * 8 + x)]? = some ((8 * (h / 8) + y) * w + 8 * bj + x)) ∧
    (∀ y x, y < h % 8 → x < w % 8 →
      (scan w h)[h / 8 * (8 * w) + w / 8 * (8 * (h % 8)) + (y * (w % 8) + x)]? =
        some ((8 * (h / 8) + y) * w + 8 * (w / 8) + x)) ∧
    (scan w h).length = w * h ∧ (scan w h).Perm (List.range (w * h)) ∧
    (w ≤ 8 → scan w h = List.range (w * h))

/-- O46 (R133). SB_EXTRACT appends the band's coefficients from scan index `start` on, in scan order, until the band ends
or the macroblock is full; it keeps the running maximum, sets vlim to 0, reports its progress, and leaves the band and
every other byte of MBV; its checks, in order. -/
def Obligations.SbExtractResult : Prop :=
  ∀ (s : State) (l : Nat) (o : Orient),
    (∀ e, s.bandError l o = some e → exec (.sbExtract l o) s = .next (raiseErr e s)) ∧
    (s.bandError l o = none → s.bw l o * s.bh l o < s.arg0.toNat →
      exec (.sbExtract l o) s = .next (raiseErr ⟨.badOperand, s.arg0.toNat⟩ s)) ∧
    (s.bandError l o = none → s.arg0.toNat ≤ s.bw l o * s.bh l o → s.alloc l o = false →
      exec (.sbExtract l o) s = .next (raiseErr ⟨.notAllocated, l⟩ s)) ∧
    (s.bandError l o = none → s.alloc l o = true → s.arg0.toNat < s.bw l o * s.bh l o → s.vpos = 16384 →
      exec (.sbExtract l o) s = .next (raiseErr ⟨.mbOverflow, s.vpos⟩ s)) ∧
    (s.bandError l o = none → s.alloc l o = true → s.arg0.toNat ≤ s.bw l o * s.bh l o →
      s.arg0.toNat = s.bw l o * s.bh l o ∨ s.vpos ≠ 16384 →
      let n := min (s.bw l o * s.bh l o - s.arg0.toNat) (16384 - s.vpos)
      let moved := (List.range n).map fun j => s.coef l o ((scan (s.bw l o) (s.bh l o)).getD (s.arg0.toNat + j) 0)
      ∃ t, exec (.sbExtract l o) s = .next t ∧
        t = complete
          { s with
            mbv := t.mbv, maxAbs := t.maxAbs, vpos := s.vpos + n, vlim := 0
            result0 := BitVec.ofNat 32 (s.arg0.toNat + n), result1 := BitVec.ofNat 32 n } ∧
        t.mbv.readWords s.vpos n = moved ∧ isRunningMax s.maxAbs moved t.maxAbs ∧
        (∀ a, ¬ (4 * s.vpos ≤ a ∧ a < 4 * (s.vpos + n)) → t.mbv.read a = s.mbv.read a))

/-- O47 (R134). SB_PLACE allocates the band if needed, and moves macroblock values, dequantized with the clamped parameter,
to the scan positions from `start` on, until the band is complete or the macroblock is exhausted; every other
coefficient and band keeps its value; its checks, in order. An allocated band is assumed to hold bw*bh coefficients
(R113). -/
def Obligations.SbPlaceResult : Prop :=
  ∀ (s : State) (l : Nat) (o : Orient),
    let room := s.alloc l o = true ∨ s.used + s.bw l o * s.bh l o ≤ s.capBand
    (∀ e, s.bandError l o = some e → exec (.sbPlace l o) s = .next (raiseErr e s)) ∧
    (s.bandError l o = none → 31 < s.arg1.toNat →
      exec (.sbPlace l o) s = .next (raiseErr ⟨.badOperand, s.arg1.toNat⟩ s)) ∧
    (s.bandError l o = none → s.arg1.toNat ≤ 31 → s.bw l o * s.bh l o < s.arg0.toNat →
      exec (.sbPlace l o) s = .next (raiseErr ⟨.badOperand, s.arg0.toNat⟩ s)) ∧
    (s.bandError l o = none → s.arg1.toNat ≤ 31 → s.arg0.toNat ≤ s.bw l o * s.bh l o → ¬ room →
      exec (.sbPlace l o) s = .next (raiseErr ⟨.insufficientMemory, s.bw l o * s.bh l o⟩ s)) ∧
    (s.bandError l o = none → s.arg1.toNat ≤ 31 → s.arg0.toNat < s.bw l o * s.bh l o → room → s.vlim ≤ s.vpos →
      exec (.sbPlace l o) s = .next (raiseErr ⟨.mbUnderflow, s.vpos⟩ s)) ∧
    (s.bandError l o = none → s.arg1.toNat ≤ 31 → s.arg0.toNat ≤ s.bw l o * s.bh l o → room →
      s.arg0.toNat = s.bw l o * s.bh l o ∨ s.vpos < s.vlim →
      (s.alloc l o = true → (s.coefs l o).length = s.bw l o * s.bh l o) →
      let n := min (s.bw l o * s.bh l o - s.arg0.toNat) (s.vlim - s.vpos)
      let at' := fun j => (scan (s.bw l o) (s.bh l o)).getD (s.arg0.toNat + j) 0
      let p := s.arg1.toNat - (match o with | .ll => l + 1 | .hl => l | .lh => l | .hh => l - 1)
      ∃ t, exec (.sbPlace l o) s = .next t ∧
        t = complete
          { s with
            bands := t.bands, used := t.used, vpos := s.vpos + n
            result0 := BitVec.ofNat 32 (s.arg0.toNat + n), result1 := BitVec.ofNat 32 n } ∧
        t.alloc l o = true ∧ (t.coefs l o).length = s.bw l o * s.bh l o ∧
        t.used = (if s.alloc l o then s.used else s.used + s.bw l o * s.bh l o) ∧
        (∀ j, j < n → t.coef l o (at' j) = BitVec.ofInt 32 ((s.mbv.readWord (s.vpos + j)).toInt * 2 ^ p)) ∧
        (∀ i, (∀ j, j < n → at' j ≠ i) → t.coef l o i = if s.alloc l o then s.coef l o i else 0#32) ∧
        bandsElsewhere l o s t)

/-! ## Wavelet commands -/

/-- O48 (R141). WT_INIT: its checks in order; on success the geometry record is stored, every band is freed, and nothing else
changes. -/
def Obligations.WtInitResult : Prop :=
  ∀ s : State,
    (s.arg0.toNat = 0 → exec .wtInit s = .next (raiseErr ⟨.badOperand, 0⟩ s)) ∧
    (1 ≤ s.arg0.toNat → s.arg1.toNat = 0 → exec .wtInit s = .next (raiseErr ⟨.badOperand, 0⟩ s)) ∧
    (1 ≤ s.arg0.toNat → 1 ≤ s.arg1.toNat → 2 ^ 32 ≤ s.arg0.toNat * s.arg1.toNat →
      exec .wtInit s = .next (raiseErr ⟨.badOperand, s.arg0.toNat⟩ s)) ∧
    (1 ≤ s.arg0.toNat → 1 ≤ s.arg1.toNat → s.arg0.toNat * s.arg1.toNat < 2 ^ 32 → 30 < s.arg2.toNat →
      exec .wtInit s = .next (raiseErr ⟨.badOperand, s.arg2.toNat⟩ s)) ∧
    (1 ≤ s.arg0.toNat → 1 ≤ s.arg1.toNat → s.arg0.toNat * s.arg1.toNat < 2 ^ 32 → s.arg2.toNat ≤ 30 →
      ∃ t, exec .wtInit s = .next t ∧
        t = complete
          { s with
            bands := t.bands, used := 0, geomW := s.arg0, geomH := s.arg1, geomL := s.arg2.setWidth 5, geom := true } ∧
        ∀ l o, t.alloc l o = false)

/-- O49 (R143). F1D's samples by position: each high sample from its two even neighbours, each low sample from the high
samples beside it, with the border cases of both parities; fewer than 5 samples are unchanged. -/
def Obligations.LiftingSteps : Prop :=
  ∀ x : List Word,
    let n := x.length
    let old := fun i => (x.getD i 0#32).toInt
    let new := fun i => ((f1d x).getD i 0#32).toInt
    (f1d x).length = n ∧
    (n < 5 → f1d x = x) ∧
    (5 ≤ n →
      (∀ j, 2 * j + 2 < n →
        (f1d x).getD (2 * j + 1) 0#32 = BitVec.ofInt 32 (old (2 * j + 1) - (old (2 * j) + old (2 * j + 2) + 1) / 2)) ∧
      (n % 2 = 0 → (f1d x).getD (n - 1) 0#32 = BitVec.ofInt 32 (old (n - 1) - old (n - 2))) ∧
      (f1d x).getD 0 0#32 = BitVec.ofInt 32 (old 0 + (new 1 + 1) / 2) ∧
      (∀ j, 0 < j → 2 * j + 1 < n →
        (f1d x).getD (2 * j) 0#32 = BitVec.ofInt 32 (old (2 * j) + (new (2 * j - 1) + new (2 * j + 1) + 2) / 4)) ∧
      (n % 2 = 1 → (f1d x).getD (n - 1) 0#32 = BitVec.ofInt 32 (old (n - 1) + (new (n - 2) + 1) / 2)))

/-- O50 (derived from R146, R149). FWD2 of a w x h array, entry by entry: F1D on every row, then on every column of the
result, then the split by parity, each band row-major. -/
def Obligations.ForwardTransformEntries : Prop :=
  ∀ (w h : Nat) (x : List Word), x.length = w * h →
    let rowDone := fun r => f1d ((List.range w).map fun c => x.getD (r * w + c) 0#32)
    let y := fun r c => (f1d ((List.range h).map fun r' => (rowDone r').getD c 0#32)).getD r 0#32
    (fwd2 w h x).ll = (List.range ((h + 1) / 2)).flatMap (fun r => (List.range ((w + 1) / 2)).map fun c => y (2 * r) (2 * c)) ∧
    (fwd2 w h x).hl = (List.range ((h + 1) / 2)).flatMap (fun r => (List.range (w / 2)).map fun c => y (2 * r) (2 * c + 1)) ∧
    (fwd2 w h x).lh = (List.range (h / 2)).flatMap (fun r => (List.range ((w + 1) / 2)).map fun c => y (2 * r + 1) (2 * c)) ∧
    (fwd2 w h x).hh = (List.range (h / 2)).flatMap (fun r => (List.range (w / 2)).map fun c => y (2 * r + 1) (2 * c + 1))

/-- O51 (derived from R145, R154). Perfect reconstruction: I1D undoes F1D on every sequence, and INV2 undoes FWD2 on every
array, also when stores wrap. -/
def Obligations.PerfectReconstruction : Prop :=
  (∀ x : List Word, i1d (f1d x) = x) ∧
  (∀ (w h : Nat) (x : List Word), 1 ≤ w → 1 ≤ h → x.length = w * h → inv2 w h (fwd2 w h x) = x)

/-- O52 (R150). WT_FWD: its checks in order; on success the four bands of level l + 1 hold FWD2 of band (l, LL), quantized as
R150 says, band (l, LL) is freed, `used` is accounted, and no other band changes. -/
def Obligations.WtFwdResult : Prop :=
  ∀ (s : State) (l : Nat),
    let need := ((orients.filter fun o => !s.alloc (l + 1) o).map fun o => s.bw (l + 1) o * s.bh (l + 1) o).sum
    let quad := fwd2 (s.bw l .ll) (s.bh l .ll) (s.coefs l .ll)
    (s.geom = false → exec (.wtFwd l) s = .next (raiseErr ⟨.notInitialised, 0⟩ s)) ∧
    (s.geom = true → s.geomL.toNat ≤ l → exec (.wtFwd l) s = .next (raiseErr ⟨.badOperand, l⟩ s)) ∧
    (s.geom = true → l < s.geomL.toNat → 31 < s.arg0.toNat →
      exec (.wtFwd l) s = .next (raiseErr ⟨.badOperand, s.arg0.toNat⟩ s)) ∧
    (s.geom = true → l < s.geomL.toNat → s.arg0.toNat ≤ 31 → s.alloc l .ll = false →
      exec (.wtFwd l) s = .next (raiseErr ⟨.notAllocated, l⟩ s)) ∧
    (s.geom = true → l < s.geomL.toNat → s.arg0.toNat ≤ 31 → s.alloc l .ll = true → s.capBand < s.used + need →
      exec (.wtFwd l) s = .next (raiseErr ⟨.insufficientMemory, need⟩ s)) ∧
    (s.geom = true → l < s.geomL.toNat → s.arg0.toNat ≤ 31 → s.alloc l .ll = true → s.used + need ≤ s.capBand →
      ∃ t, exec (.wtFwd l) s = .next t ∧ t = complete { s with bands := t.bands, used := t.used } ∧
        (∀ o, t.alloc (l + 1) o = true ∧ t.coefs (l + 1) o =
          if 0 < s.arg0.toNat ∧ (o ≠ .ll ∨ l + 1 = s.geomL.toNat)
            then quantBand s.arg0.toNat (l + 1) o (quad.get o) else quad.get o) ∧
        t.alloc l .ll = false ∧ t.used = s.used + need - s.bw l .ll * s.bh l .ll ∧
        ∀ l' o', l' ≠ l + 1 → ¬ (l' = l ∧ o' = .ll) →
          t.alloc l' o' = s.alloc l' o' ∧ t.coefs l' o' = s.coefs l' o')

/-- O53 (R153). WT_INV: its checks in order; on success band (l - 1, LL) holds INV2 of the four bands of level l, those are
freed, `used` is accounted, and no other band changes. -/
def Obligations.WtInvResult : Prop :=
  ∀ (s : State) (l : Nat),
    let size := s.bw (l - 1) .ll * s.bh (l - 1) .ll
    (s.geom = false → exec (.wtInv l) s = .next (raiseErr ⟨.notInitialised, 0⟩ s)) ∧
    (s.geom = true → ¬ (1 ≤ l ∧ l ≤ s.geomL.toNat) → exec (.wtInv l) s = .next (raiseErr ⟨.badOperand, l⟩ s)) ∧
    (s.geom = true → 1 ≤ l → l ≤ s.geomL.toNat → (∃ o, s.alloc l o = false) →
      exec (.wtInv l) s = .next (raiseErr ⟨.notAllocated, l⟩ s)) ∧
    (s.geom = true → 1 ≤ l → l ≤ s.geomL.toNat → (∀ o, s.alloc l o = true) → s.alloc (l - 1) .ll = false →
      s.capBand < s.used + size → exec (.wtInv l) s = .next (raiseErr ⟨.insufficientMemory, size⟩ s)) ∧
    (s.geom = true → 1 ≤ l → l ≤ s.geomL.toNat → (∀ o, s.alloc l o = true) →
      s.alloc (l - 1) .ll = true ∨ s.used + size ≤ s.capBand →
      ∃ t, exec (.wtInv l) s = .next t ∧ t = complete { s with bands := t.bands, used := t.used } ∧
        t.alloc (l - 1) .ll = true ∧
        t.coefs (l - 1) .ll = inv2 (s.bw (l - 1) .ll) (s.bh (l - 1) .ll)
          ⟨s.coefs l .ll, s.coefs l .hl, s.coefs l .lh, s.coefs l .hh⟩ ∧
        (∀ o, t.alloc l o = false) ∧
        t.used = (if s.alloc (l - 1) .ll then s.used else s.used + size)
          - (orients.map fun o => s.bw l o * s.bh l o).sum ∧
        ∀ l' o', l' ≠ l → ¬ (l' = l - 1 ∧ o' = .ll) →
          t.alloc l' o' = s.alloc l' o' ∧ t.coefs l' o' = s.coefs l' o')

/-- O54 (derived from R154). The lossless round trip of the machine: from a sound store, WT_FWD with quant = 0 and then
WT_INV of the next level both complete, and restore band (l, LL) exactly. -/
def Obligations.LosslessLevel : Prop :=
  ∀ (s : State) (l : Nat), s.storeSound = true → s.geom = true → l < s.geomL.toNat → s.alloc l .ll = true →
    s.arg0 = 0#32 → s.used + s.fwdNeed l ≤ s.capBand →
    ∃ t u, exec (.wtFwd l) s = .next t ∧ exec (.wtInv (l + 1)) t = .next u ∧
      u.alloc l .ll = true ∧ u.coefs l .ll = s.coefs l .ll ∧ (∀ o, u.alloc (l + 1) o = false) ∧ u.err = s.err

/-! ## Macroblock commands -/

/-- O55 (R166, R167, R196). MB_CLEAR empties the macroblock and keeps MBV; MB_PUT appends ARG0, or raises MB_OVERFLOW(vpos);
MB_GET reads and advances, or raises MB_UNDERFLOW(vpos). -/
def Obligations.MbClearPutGetResult : Prop :=
  ∀ s : State,
    exec .mbClear s = .next (complete { s with vpos := 0, vlim := 0, maxAbs := 0 }) ∧
    (s.vpos < 16384 → ∃ t, exec .mbPut s = .next t ∧
      t = complete
        { s with mbv := t.mbv, vpos := s.vpos + 1, vlim := 0, maxAbs := max s.maxAbs s.arg0.toInt.natAbs } ∧
      t.mbv.readWord s.vpos = s.arg0 ∧
      (∀ a, ¬ (4 * s.vpos ≤ a ∧ a < 4 * s.vpos + 4) → t.mbv.read a = s.mbv.read a)) ∧
    (16384 ≤ s.vpos → exec .mbPut s = .next (raiseErr ⟨.mbOverflow, s.vpos⟩ s)) ∧
    (s.vpos < s.vlim → exec .mbGet s =
      .next (complete { s with result0 := s.mbv.readWord s.vpos, vpos := s.vpos + 1 })) ∧
    (s.vlim ≤ s.vpos → exec .mbGet s = .next (raiseErr ⟨.mbUnderflow, s.vpos⟩ s))

/-- O56 (derived from R55, R109, R169, R170, R186, R188, R189, R192). MB_ENCODE of a macroblock with 1 ≤ vpos ≤ MB_CAP: the padding, the
encoded values, the completion writes; CB, SF and the temporaries are those of the encode of the values with the
FAVOR_SPEED the command was accepted with (log 20), CB and the temporaries bit by bit too; an empty macroblock raises BAD_OPERAND(0). -/
def Obligations.MbEncodeResult : Prop :=
  ∀ (s : State) (pad tileEnd : Bool),
    (s.vpos = 0 → exec (.mbEncode pad tileEnd) s = .next (raiseErr ⟨.badOperand, 0⟩ s)) ∧
    (1 ≤ s.vpos → s.vpos ≤ 16384 →
      let bs := if pad then 16384 else s.vpos
      let vs := (List.range bs).map fun i => if i < s.vpos then s.mbv.readWord i else 0#32
      let e := encodeValues s.favorTaken vs
      ∃ t, exec (.mbEncode pad tileEnd) s = .next t ∧
        t = complete
          { s with
            mbv := t.mbv, cb := t.cb, sf := t.sf, sigt := t.sigt, reft := t.reft, sgnt := t.sgnt
            wordlen := BitVec.ofNat 16 (e.cp / 32)
            mbhdr := BitVec.ofNat 16 bs ||| (if tileEnd then 0x8000#16 else 0#16)
            nplanes := t.nplanes
            result0 := BitVec.ofNat 32 (e.cp / 32), result1 := t.nplanes.setWidth 32, result2 := BitVec.ofNat 32 bs
            vpos := 0, vlim := 0, maxAbs := 0 } ∧
        e.cp % 32 = 0 ∧
        t.cb = Memory.ofBits (4 * 32768) e.cb ∧ t.sf = sigIndices 0 e.coefs ∧
        t.sigt = Memory.ofBits (4 * 512) e.sigt ∧ t.reft = Memory.ofBits (4 * 512) e.reft ∧
        t.sgnt = Memory.ofBits (4 * 512) e.sgnt ∧
        (∀ p, p < 32 * 32768 → t.cb.getBit p = BitString.getBit e.cb p) ∧
        (∀ p, p < 32 * 512 → t.sigt.getBit p = BitString.getBit e.sigt p ∧
          t.reft.getBit p = BitString.getBit e.reft p ∧ t.sgnt.getBit p = BitString.getBit e.sgnt p) ∧
        (∃ m, isRunningMax 0 vs m ∧ t.nplanes = BitVec.ofNat 5 (if m = 0 then 1 else Nat.log2 m + 1)) ∧
        (∀ i, i < bs → t.mbv.readWord i = vs.getD i 0#32) ∧
        (∀ a, ¬ (pad = true ∧ 4 * s.vpos ≤ a ∧ a < 4 * 16384) → t.mbv.read a = s.mbv.read a))

/-- O57 (derived from R86, R170, R171, R175 to R178, R180 to R183, R190). The payload of an encode of 1 to MB_CAP values,
field by field: nPlanes, then for each plane from the highest down the selector, length, code, sign, significance and
refinement bits at the positions of R86, in the form that R178 and R181 choose; it ends where the layout ends. It is at
most 33 * bs + 5445 bits, which fits CB and the 16-bit word count. -/
def Obligations.EncodedPayloadBounds : Prop :=
  ∀ (favorSpeed : Bool) (vs : List Word), 1 ≤ vs.length → vs.length ≤ 16384 →
    let e := encodeValues favorSpeed vs
    (∀ m, isRunningMax 0 vs m →
      let planes := if m = 0 then 1 else Nat.log2 m + 1
      let layout := payloadLayout (chosenForm favorSpeed vs) planes vs
      planes ≤ 32 ∧ carries e.cb layout ∧ e.cp = layout.fin) ∧
    getVal (BitString.getBit e.cb) 0 5 = planeCount (maxMagnitude vs) % 32 ∧
    32 ≤ e.cp ∧ e.cp ≤ 33 * vs.length + 5445 ∧ e.cb < 2 ^ (51 * 16384 + 5509)

/-- O58 (derived from R197, R199, R202, R203, R205, R207 to R210). MB_DECODE: its operand checks in order; a payload that
decodes gives the values, their count and the nPlanes field, with MBV beyond them, CB, WORDLEN and MBHDR unchanged; a
payload that does not ends in FORMAT_CANNOT_READ or MISSING_DATA with an empty macroblock and MBV and SF open (log 6).
The checks on the first plane: a payload of no words, a code that ends at once, a run that overshoots the plane, a
sigLen that is not bs, and a signLen of 0 before a position that becomes significant. -/
def Obligations.MbDecodeResult : Prop :=
  ∀ s : State,
    let wl := s.wordlen.toNat
    let bs := s.mbhdr.toNat % 2 ^ 15
    (32768 < wl → exec .mbDecode s = .next (raiseErr ⟨.badOperand, wl⟩ s)) ∧
    (wl ≤ 32768 → bs = 0 ∨ 16384 < bs → exec .mbDecode s = .next (raiseErr ⟨.badOperand, bs⟩ s)) ∧
    (wl ≤ 32768 → 1 ≤ bs → bs ≤ 16384 → ∀ field cs, decodeValues ⟨s.cb.toBits, 32 * wl⟩ bs = .ok (field, cs) →
      cs.length = bs ∧ field < 32 ∧
      ∃ t, exec .mbDecode s = .next t ∧
        t = complete
          { s with
            mbv := t.mbv, sf := t.sf, vpos := 0, vlim := bs, maxAbs := 0, nplanes := BitVec.ofNat 5 field
            result0 := BitVec.ofNat 32 bs, result1 := BitVec.ofNat 32 field } ∧
        (∀ i c, cs[i]? = some c →
          t.mbv.readWord i = BitVec.ofInt 32 (if c.neg then -(c.mag : Int) else (c.mag : Int))) ∧
        (∀ a, 4 * bs ≤ a → t.mbv.read a = s.mbv.read a)) ∧
    (wl ≤ 32768 → 1 ≤ bs → bs ≤ 16384 → ∀ e, decodeValues ⟨s.cb.toBits, 32 * wl⟩ bs = .error e →
      (e.code = .formatCannotRead ∨ e.code = .missingData) ∧
      ∃ t, exec .mbDecode s = .next t ∧
        t = raiseErr e
          { s with mbv := t.mbv, sf := t.sf, vpos := 0, vlim := 0, maxAbs := 0, freeCtr := t.freeCtr }) ∧
    ∀ (bits : BitString) (n k : Nat), 1 ≤ n → 65 ≤ k →
      let bit := BitString.getBit bits
      decodeValues ⟨bits, 0⟩ n = .error ⟨.missingData, 0⟩ ∧
      (bit 5 = true → getVal bit 6 15 = 0 → decodeValues ⟨bits, k⟩ n = .error ⟨.formatCannotRead, 21⟩) ∧
      (bit 5 = true → 1 ≤ getVal bit 6 15 → bit 21 = false → n < 8 →
        decodeValues ⟨bits, k⟩ n = .error ⟨.formatCannotRead, 5⟩) ∧
      (bit 5 = false → getVal bit 6 15 ≠ n → decodeValues ⟨bits, k⟩ n = .error ⟨.formatCannotRead, 6⟩) ∧
      (bit 5 = false → getVal bit 6 15 = n → bit 21 = false → getVal bit 22 15 = 0 → bit 64 = true →
        decodeValues ⟨bits, k⟩ n = .error ⟨.formatCannotRead, 64⟩)

/-- O59 (derived from R86, R87, R197, R199 to R202, R204 to R206, R208, R211). What MB_DECODE reads of its payload. No CB
word at index WORDLEN or above: two payloads that agree below 32 * WORDLEN decode alike, to the same values or the same
error at the same position. And only the fields of the format: a payload that carries the fields of R86 for some values,
with any form of R85 for each plane and any padding, decodes to these values and their plane count, and ends in
MISSING_DATA if WORDLEN is too small for it. -/
def Obligations.DecodeReadsOnlyPayload : Prop :=
  (∀ (bits bits' : BitString) (wl bs : Nat),
    (∀ p, p < 32 * wl → BitString.getBit bits p = BitString.getBit bits' p) →
    decodeValues ⟨bits, 32 * wl⟩ bs = decodeValues ⟨bits', 32 * wl⟩ bs) ∧
  (∀ (bits : BitString) (wl planes : Nat) (form : Nat → PlaneForm) (vs : List Word),
    1 ≤ vs.length → vs.length ≤ 16384 → 1 ≤ planes → planes ≤ 32 → (∀ v ∈ vs, absCoef v < 2 ^ planes) →
    (∀ b, b < planes → formFits vs b (form b)) →
    let layout := payloadLayout form planes vs
    carries bits layout →
    (layout.fin ≤ 32 * wl → ∃ cs, decodeValues ⟨bits, 32 * wl⟩ vs.length = .ok (planes % 32, cs) ∧
      cs.map (fun c => (c.mag, c.neg)) = vs.map (fun v => (absCoef v, decide (v.toInt < 0)))) ∧
    (32 * wl < layout.fin → ∃ p, decodeValues ⟨bits, 32 * wl⟩ vs.length = .error ⟨.missingData, p⟩ ∧
      32 * wl ≤ p ∧ p ≤ layout.fin))

/-- O60 (R191, R212). The round trip: MB_ENCODE of any macroblock with 1 ≤ vpos ≤ MB_CAP, with either FAVOR_SPEED, padded or
not, and then MB_DECODE, raises no error and gives every encoded value back, with the same NPLANES. -/
def Obligations.EncodeDecodeRoundTrip : Prop :=
  ∀ (s : State) (pad tileEnd : Bool), 1 ≤ s.vpos → s.vpos ≤ 16384 →
    ∃ t u, exec (.mbEncode pad tileEnd) s = .next t ∧ exec .mbDecode t = .next u ∧
      u.err = s.err ∧ u.nplanes = t.nplanes ∧ u.vlim = (if pad then 16384 else s.vpos) ∧
      ∀ i, i < (if pad then 16384 else s.vpos) →
        u.mbv.readWord i = t.mbv.readWord i ∧ (i < s.vpos → u.mbv.readWord i = s.mbv.readWord i)

end
end

