-- ==== Sys2Proof/Laws/Memory.lean ====
section
/-! SUPPORT. Memory: what a read gives after each operation, and that every operation keeps the canonical form. -/

namespace Sys2Proof.Machine

/-- R8: a `Word` is a bit vector of COEF_BITS and of WORD_BITS bits. -/
theorem word_width : Word = BitVec Config.coefBits ∧ Word = BitVec Config.wordBits := ⟨rfl, rfl⟩

/-! ## Reads -/

@[simp] theorem Memory.read_nil (a : Nat) : Memory.read [] a = 0#8 := rfl

theorem Memory.read_append (m n : Memory) (a : Nat) :
    Memory.read (m ++ n) a = if m.any (fun c => decide (c.1 = a)) then Memory.read m a else Memory.read n a := by
  induction m with
  | nil => simp
  | cons c t ih =>
    obtain ⟨k, v⟩ := c
    by_cases h : k = a <;> simp [Memory.read, h, ih]

theorem Memory.read_of_absent (m : Memory) (a : Nat) (h : ∀ c ∈ m, c.1 ≠ a) : Memory.read m a = 0#8 := by
  induction m with
  | nil => rfl
  | cons c t ih =>
    obtain ⟨k, v⟩ := c
    have hk : k ≠ a := h (k, v) (by simp)
    simpa [Memory.read, hk] using ih fun c hc => h c (by simp [hc])

/-- A filter that depends on the address alone keeps the reads of the addresses it keeps. -/
theorem Memory.read_filter (p : Nat → Bool) (m : Memory) (a : Nat) :
    Memory.read (m.filter fun c => p c.1) a = if p a then Memory.read m a else 0#8 := by
  induction m with
  | nil => simp
  | cons c t ih =>
    obtain ⟨k, v⟩ := c
    by_cases hp : p k = true
    · by_cases hk : k = a
      · subst hk; simp [Memory.read, hp]
      · simp [Memory.read, hp, hk, ih]
    · by_cases hk : k = a
      · subst hk; simp [hp, ih]
      · simp [Memory.read, hp, hk, ih]

theorem cellsOf_mem (bs : List Byte) : ∀ a c, c ∈ cellsOf a bs → a ≤ c.1 ∧ c.1 < a + bs.length ∧ c.2 ≠ 0#8 := by
  induction bs with
  | nil => intro a c h; simp [cellsOf] at h
  | cons b t ih =>
    intro a c h
    simp only [cellsOf] at h
    split at h
    · have := ih (a + 1) c h
      simp only [List.length_cons]; exact ⟨by omega, by omega, this.2.2⟩
    · rcases List.mem_cons.1 h with rfl | h
      · simp only [List.length_cons]; exact ⟨le_refl _, by omega, by assumption⟩
      · have := ih (a + 1) c h
        simp only [List.length_cons]; exact ⟨by omega, by omega, this.2.2⟩

theorem read_cellsOf (bs : List Byte) : ∀ a x, Memory.read (cellsOf a bs) x =
    if a ≤ x then bs.getD (x - a) 0#8 else 0#8 := by
  induction bs with
  | nil => intro a x; simp [cellsOf]
  | cons b t ih =>
    intro a x
    by_cases hx : x = a
    · subst hx
      by_cases hb : b = 0#8
      · have : ¬ x + 1 ≤ x := by omega
        simp [cellsOf, hb, ih, this]
      · simp [cellsOf, hb, Memory.read]
    · have hrec : Memory.read (cellsOf a (b :: t)) x = Memory.read (cellsOf (a + 1) t) x := by
        by_cases hb : b = 0#8
        · simp [cellsOf, hb]
        · simp [cellsOf, hb, Memory.read, Ne.symm hx]
      rw [hrec, ih]
      by_cases hle : a ≤ x
      · have h1 : a + 1 ≤ x := by omega
        have h2 : x - a = (x - (a + 1)) + 1 := by omega
        simp [hle, h1, h2]
      · have h1 : ¬ a + 1 ≤ x := by omega
        simp [hle, h1]

theorem Memory.read_of_any_false (m : Memory) (a : Nat) (h : m.any (fun c => decide (c.1 = a)) = false) :
    Memory.read m a = 0#8 := by
  apply Memory.read_of_absent
  intro c hc he
  have := List.any_eq_false.1 h c hc
  simp [he] at this

/-- The one law of stores: the stored bytes read back, every other address reads as before. -/
theorem Memory.read_write (m : Memory) (a : Nat) (bs : List Byte) (x : Nat) :
    (m.write a bs).read x = if a ≤ x ∧ x < a + bs.length then bs.getD (x - a) 0#8 else m.read x := by
  have hlow : Memory.read (m.filter fun c => decide (c.1 < a)) x = if x < a then m.read x else 0#8 := by
    simpa using Memory.read_filter (fun k => decide (k < a)) m x
  have hhigh : Memory.read (m.filter fun c => decide (a + bs.length ≤ c.1)) x =
      if a + bs.length ≤ x then m.read x else 0#8 := by
    simpa using Memory.read_filter (fun k => decide (a + bs.length ≤ k)) m x
  have hmid := read_cellsOf bs a x
  unfold Memory.write
  rw [Memory.read_append, Memory.read_append]
  by_cases h1 : x < a
  · have hn : ¬ (a ≤ x ∧ x < a + bs.length) := by omega
    have hn2 : ¬ a + bs.length ≤ x := by omega
    have hn3 : ¬ a ≤ x := by omega
    rw [if_neg hn, hlow, hmid, hhigh, if_pos h1, if_neg hn3, if_neg hn2]
    by_cases hany : (m.filter fun c => decide (c.1 < a)).any (fun c => decide (c.1 = x)) = true
    · simp [hany]
    · have hz := Memory.read_of_any_false _ _ (Bool.eq_false_iff.2 hany)
      rw [hlow, if_pos h1] at hz
      simp [hz]
  · by_cases h2 : x < a + bs.length
    · have hp : a ≤ x ∧ x < a + bs.length := by omega
      have hn2 : ¬ a + bs.length ≤ x := by omega
      have ha1 : (m.filter fun c => decide (c.1 < a)).any (fun c => decide (c.1 = x)) = false := by
        simp only [List.any_eq_false, List.mem_filter, decide_eq_true_eq]
        rintro c ⟨_, hc⟩ rfl; omega
      have ha3 : (m.filter fun c => decide (a + bs.length ≤ c.1)).any (fun c => decide (c.1 = x)) = false := by
        simp only [List.any_eq_false, List.mem_filter, decide_eq_true_eq]
        rintro c ⟨_, hc⟩ rfl; omega
      rw [if_pos hp, List.any_append, ha1, Bool.false_or, hlow, if_neg h1, hmid, if_pos hp.1, hhigh, if_neg hn2]
      by_cases hany : (cellsOf a bs).any (fun c => decide (c.1 = x)) = true
      · simp [hany]
      · have hz := Memory.read_of_any_false _ _ (Bool.eq_false_iff.2 hany)
        rw [hmid, if_pos hp.1] at hz
        simp only [hany]
        rw [hz]; simp
    · have hn : ¬ (a ≤ x ∧ x < a + bs.length) := by omega
      have hp2 : a + bs.length ≤ x := by omega
      have ha1 : (m.filter fun c => decide (c.1 < a)).any (fun c => decide (c.1 = x)) = false := by
        simp only [List.any_eq_false, List.mem_filter, decide_eq_true_eq]
        rintro c ⟨_, hc⟩ rfl; omega
      have ha2 : (cellsOf a bs).any (fun c => decide (c.1 = x)) = false := by
        simp only [List.any_eq_false, decide_eq_true_eq]
        rintro c hc rfl
        have := cellsOf_mem bs a c hc; omega
      rw [if_neg hn, List.any_append, ha1, ha2]
      simp [hhigh, hp2]

/-- Clearing stores zeros. -/
theorem Memory.read_clear (m : Memory) (a n x : Nat) :
    (m.clear a n).read x = if a ≤ x ∧ x < a + n then 0#8 else m.read x := by
  have h := Memory.read_filter (fun k => decide (k < a) || decide (a + n ≤ k)) m x
  rw [Memory.clear, h]
  by_cases hp : a ≤ x ∧ x < a + n
  · have : ¬ x < a := by omega
    have h3 : ¬ a + n ≤ x := by omega
    simp [hp, this, h3]
  · have : x < a ∨ a + n ≤ x := by omega
    rw [if_neg hp, if_pos (by simpa using this)]

/-! ## The canonical form -/

theorem Memory.risingFrom_mono {m : Memory} {lo lo' : Nat} (h : Memory.risingFrom lo m = true) (hle : lo' ≤ lo) :
    Memory.risingFrom lo' m = true := by
  cases m with
  | nil => rfl
  | cons c t =>
    obtain ⟨k, v⟩ := c
    simp only [Memory.risingFrom, Bool.and_eq_true, decide_eq_true_eq] at h ⊢
    exact ⟨⟨by omega, h.1.2⟩, h.2⟩

theorem Memory.risingFrom_mem {m : Memory} : ∀ {lo : Nat}, Memory.risingFrom lo m = true → ∀ c ∈ m, lo ≤ c.1 := by
  induction m with
  | nil => intro lo _ c hc; simp at hc
  | cons d t ih =>
    obtain ⟨k, v⟩ := d
    intro lo h c hc
    simp only [Memory.risingFrom, Bool.and_eq_true, decide_eq_true_eq] at h
    rcases List.mem_cons.1 hc with rfl | hc
    · exact h.1.1
    · have := ih h.2 c hc; omega

theorem Memory.risingFrom_filter (p : Host.Cell → Bool) {m : Memory} :
    ∀ {lo : Nat}, Memory.risingFrom lo m = true → Memory.risingFrom lo (m.filter p) = true := by
  induction m with
  | nil => intro lo _; rfl
  | cons d t ih =>
    obtain ⟨k, v⟩ := d
    intro lo h
    simp only [Memory.risingFrom, Bool.and_eq_true, decide_eq_true_eq] at h
    simp only [List.filter_cons]
    split
    · simp only [Memory.risingFrom, Bool.and_eq_true, decide_eq_true_eq]
      exact ⟨h.1, ih h.2⟩
    · exact Memory.risingFrom_mono (ih h.2) (by omega)

theorem risingFrom_cellsOf (bs : List Byte) : ∀ a, Memory.risingFrom a (cellsOf a bs) = true := by
  induction bs with
  | nil => intro a; rfl
  | cons b t ih =>
    intro a
    simp only [cellsOf]
    split
    · exact Memory.risingFrom_mono (ih (a + 1)) (by omega)
    · rename_i hb
      simp [Memory.risingFrom, ih, hb]

theorem Memory.risingFrom_append {m n : Memory} :
    ∀ {lo mid : Nat}, Memory.risingFrom lo m = true → (∀ c ∈ m, c.1 < mid) → lo ≤ mid →
      Memory.risingFrom mid n = true → Memory.risingFrom lo (m ++ n) = true := by
  induction m with
  | nil => intro lo mid _ _ hle hn; exact Memory.risingFrom_mono hn hle
  | cons d t ih =>
    obtain ⟨k, v⟩ := d
    intro lo mid hm hlt hle hn
    simp only [List.cons_append, Memory.risingFrom, Bool.and_eq_true, decide_eq_true_eq] at hm ⊢
    have hk : k < mid := hlt (k, v) (by simp)
    exact ⟨hm.1, ih hm.2 (fun c hc => hlt c (by simp [hc])) (by omega) hn⟩

theorem Memory.risingFrom_of_le {m : Memory} {lo lo' : Nat} (h : Memory.risingFrom lo m = true)
    (hge : ∀ c ∈ m, lo' ≤ c.1) : Memory.risingFrom lo' m = true := by
  cases m with
  | nil => rfl
  | cons c t =>
    obtain ⟨k, v⟩ := c
    simp only [Memory.risingFrom, Bool.and_eq_true, decide_eq_true_eq] at h ⊢
    exact ⟨⟨hge (k, v) (by simp), h.1.2⟩, h.2⟩

/-- A store keeps the canonical form. -/
theorem Memory.wf_write {m : Memory} (h : m.wf = true) (a : Nat) (bs : List Byte) : (m.write a bs).wf = true := by
  unfold Memory.wf Memory.write at *
  have hlow := Memory.risingFrom_filter (fun c => decide (c.1 < a)) h
  have hhigh := Memory.risingFrom_filter (fun c => decide (a + bs.length ≤ c.1)) h
  have h1 : Memory.risingFrom 0 (m.filter (fun c => decide (c.1 < a)) ++ cellsOf a bs) = true :=
    Memory.risingFrom_append (mid := a) hlow (by intro c hc; simpa using (List.mem_filter.1 hc).2) (by omega)
      (risingFrom_cellsOf bs a)
  refine Memory.risingFrom_append (mid := a + bs.length) h1 ?_ (by omega) ?_
  · intro c hc
    rcases List.mem_append.1 hc with hc | hc
    · have : c.1 < a := by simpa using (List.mem_filter.1 hc).2
      omega
    · exact (cellsOf_mem bs a c hc).2.1
  · exact Memory.risingFrom_of_le hhigh (by intro c hc; simpa using (List.mem_filter.1 hc).2)

/-- Clearing keeps the canonical form. -/
theorem Memory.wf_clear {m : Memory} (h : m.wf = true) (a n : Nat) : (m.clear a n).wf = true :=
  Memory.risingFrom_filter _ h

/-- A store of words keeps the canonical form. -/
theorem Memory.wf_writeWords {m : Memory} (h : m.wf = true) (i : Nat) (ws : List Word) :
    (m.writeWords i ws).wf = true :=
  Memory.wf_write h _ _

/-- A store of one bit keeps the canonical form. -/
theorem Memory.wf_putBit {m : Memory} (h : m.wf = true) (p : Nat) (b : Bool) : (m.putBit p b).wf = true :=
  Memory.wf_write h _ _

/-- A store of a bit field keeps the canonical form. -/
theorem Memory.wf_setVal (k : Nat) : ∀ {m : Memory} (_ : m.wf = true) (p v : Nat), (m.setVal p v k).wf = true := by
  induction k with
  | zero => intro m h p v; exact h
  | succ k ih => intro m h p v; exact ih (Memory.wf_putBit h p _) (p + 1) (v / 2)

/-- The array built from consecutive bytes is in canonical form. -/
theorem wf_cellsOf (bs : List Byte) : Memory.wf (cellsOf 0 bs) = true := risingFrom_cellsOf bs 0

/-- The array built from a bit string is in canonical form. -/
theorem Memory.wf_ofBits (cap : Nat) (a : BitString) : (Memory.ofBits cap a).wf = true := wf_cellsOf _

theorem bytesOf_length (n : Nat) : ∀ a, (bytesOf n a).length = n := by
  induction n with
  | zero => intro a; rfl
  | succ n ih => intro a; simp [bytesOf, ih]

theorem Memory.below_cellsOf (bs : List Byte) (a n : Nat) (h : a + bs.length ≤ n) :
    Memory.below (cellsOf a bs) n = true := by
  simp only [Memory.below, List.all_eq_true, decide_eq_true_eq]
  intro c hc
  have := cellsOf_mem bs a c hc
  omega

/-- The array built from a bit string lies inside its capacity. -/
theorem Memory.below_ofBits (cap : Nat) (a : BitString) : (Memory.ofBits cap a).below cap = true :=
  Memory.below_cellsOf _ _ _ (by rw [bytesOf_length]; omega)

/-- A store inside the capacity keeps the array inside it. -/
theorem Memory.below_write {m : Memory} {n : Nat} (h : m.below n = true) (a : Nat) (bs : List Byte)
    (hb : a + bs.length ≤ n) : (m.write a bs).below n = true := by
  simp only [Memory.below, List.all_eq_true, decide_eq_true_eq, Memory.write, List.mem_append, List.mem_filter] at *
  rintro c ((⟨hc, -⟩ | hc) | ⟨hc, -⟩)
  · exact h c hc
  · have := cellsOf_mem bs a c hc; omega
  · exact h c hc

/-! ## Bits -/

theorem bit_of_byte_put (v : Byte) (i j : Nat) (hi : i < 8) (b : Bool) :
    (if b then v ||| (1#8 <<< i) else v &&& ~~~(1#8 <<< i)).getLsbD j = if j = i then b else v.getLsbD j := by
  by_cases hj : j < 8
  · by_cases hji : j = i
    · subst hji; cases b <;> simp [hj]
    · rcases Nat.lt_or_gt_of_ne hji with hlt | hgt
      · cases b <;> simp [hj, hji, hlt]
      · have h0 : ¬ (j < i) := by omega
        have h1 : ¬ j - i = 0 := by omega
        cases b <;> simp [hj, hji, h0, h1]
  · have h8 : 8 ≤ j := by omega
    have hji : j ≠ i := by omega
    rw [if_neg hji, BitVec.getLsbD_of_ge _ _ h8, BitVec.getLsbD_of_ge _ _ h8]

/-- The one law of bit stores: the stored bit reads back, every other bit reads as before. -/
theorem Memory.getBit_putBit (m : Memory) (p q : Nat) (b : Bool) :
    (m.putBit p b).getBit q = if q = p then b else m.getBit q := by
  unfold Memory.getBit Memory.putBit
  rw [Memory.read_write]
  simp only [List.length_cons, List.length_nil, Nat.zero_add]
  by_cases hd : q / 8 = p / 8
  · have hc : p / 8 ≤ q / 8 ∧ q / 8 < p / 8 + 1 := by omega
    rw [if_pos hc, hd, Nat.sub_self, List.getD_cons_zero, bit_of_byte_put _ _ _ (Nat.mod_lt _ (by omega))]
    by_cases hqp : q = p
    · subst hqp; simp
    · have : q % 8 ≠ p % 8 := by omega
      simp [hqp, this]
  · have hc : ¬ (p / 8 ≤ q / 8 ∧ q / 8 < p / 8 + 1) := by omega
    have hqp : q ≠ p := by rintro rfl; exact hd rfl
    rw [if_neg hc, if_neg hqp]

/-- A bit store changes no byte but the one that holds the bit. -/
theorem Memory.read_putBit_of_ne (m : Memory) (p x : Nat) (b : Bool) (h : x ≠ p / 8) :
    (m.putBit p b).read x = m.read x := by
  unfold Memory.putBit
  rw [Memory.read_write, if_neg]
  simp only [List.length_cons, List.length_nil]; omega

/-- The one law of bit-field stores on a bit string (R96). -/
theorem BitString.testBit_setVal (a : BitString) (p v k q : Nat) :
    (BitString.setVal a p v k).testBit q = if p ≤ q ∧ q < p + k then v.testBit (q - p) else a.testBit q := by
  unfold BitString.setVal
  rw [Nat.testBit_xor, Nat.testBit_shiftLeft, Nat.testBit_mod_two_pow, Nat.testBit_xor, Nat.testBit_shiftRight]
  by_cases h : p ≤ q
  · have hpq : p + (q - p) = q := by omega
    by_cases hk : q < p + k
    · have : q - p < k := by omega
      simp [h, hk, this, hpq]
    · have : ¬ q - p < k := by omega
      simp [h, hk, this]
  · simp [h]

/-- The one law of bit stores on a bit string. -/
theorem BitString.getBit_putBit (a : BitString) (p q : Nat) (b : Bool) :
    BitString.getBit (BitString.putBit a p b) q = if q = p then b else BitString.getBit a q := by
  unfold BitString.getBit BitString.putBit
  rw [BitString.testBit_setVal]
  by_cases h : q = p
  · subst h; cases b <;> simp
  · have : ¬ (p ≤ q ∧ q < p + 1) := by omega
    rw [if_neg this, if_neg h]

end Sys2Proof.Machine
end

