-- ==== Sys2Proof/Laws/State.lean ====
section
/-! SUPPORT. One lemma per field for each update of the state that has a name. -/

namespace Sys2Proof.Machine

/-! ## Completion (R226) -/

@[simp] theorem complete_ieDone (s : State) : (complete s).ieDone = s.ieDone := rfl
@[simp] theorem complete_ieErr (s : State) : (complete s).ieErr = s.ieErr := rfl
@[simp] theorem complete_favorSpeed (s : State) : (complete s).favorSpeed = s.favorSpeed := rfl
@[simp] theorem complete_ieDoneTaken (s : State) : (complete s).ieDoneTaken = s.ieDoneTaken := rfl
@[simp] theorem complete_ieErrTaken (s : State) : (complete s).ieErrTaken = s.ieErrTaken := rfl
@[simp] theorem complete_favorTaken (s : State) : (complete s).favorTaken = s.favorTaken := rfl
@[simp] theorem complete_busy (s : State) : (complete s).busy = false := rfl
@[simp] theorem complete_done (s : State) : (complete s).done = true := rfl
@[simp] theorem complete_err (s : State) : (complete s).err = s.err := rfl
@[simp] theorem complete_haz (s : State) : (complete s).haz = s.haz := rfl
@[simp] theorem complete_geom (s : State) : (complete s).geom = s.geom := rfl
@[simp] theorem complete_errcode (s : State) : (complete s).errcode = s.errcode := rfl
@[simp] theorem complete_errcmd (s : State) : (complete s).errcmd = s.errcmd := rfl
@[simp] theorem complete_errarg (s : State) : (complete s).errarg = s.errarg := rfl
@[simp] theorem complete_cmd (s : State) : (complete s).cmd = s.cmd := rfl
@[simp] theorem complete_arg0 (s : State) : (complete s).arg0 = s.arg0 := rfl
@[simp] theorem complete_arg1 (s : State) : (complete s).arg1 = s.arg1 := rfl
@[simp] theorem complete_arg2 (s : State) : (complete s).arg2 = s.arg2 := rfl
@[simp] theorem complete_result0 (s : State) : (complete s).result0 = s.result0 := rfl
@[simp] theorem complete_result1 (s : State) : (complete s).result1 = s.result1 := rfl
@[simp] theorem complete_result2 (s : State) : (complete s).result2 = s.result2 := rfl
@[simp] theorem complete_wordlen (s : State) : (complete s).wordlen = s.wordlen := rfl
@[simp] theorem complete_mbhdr (s : State) : (complete s).mbhdr = s.mbhdr := rfl
@[simp] theorem complete_nplanes (s : State) : (complete s).nplanes = s.nplanes := rfl
@[simp] theorem complete_vpos (s : State) : (complete s).vpos = s.vpos := rfl
@[simp] theorem complete_vlim (s : State) : (complete s).vlim = s.vlim := rfl
@[simp] theorem complete_maxAbs (s : State) : (complete s).maxAbs = s.maxAbs := rfl
@[simp] theorem complete_geomW (s : State) : (complete s).geomW = s.geomW := rfl
@[simp] theorem complete_geomH (s : State) : (complete s).geomH = s.geomH := rfl
@[simp] theorem complete_geomL (s : State) : (complete s).geomL = s.geomL := rfl
@[simp] theorem complete_capBand (s : State) : (complete s).capBand = s.capBand := rfl
@[simp] theorem complete_cb (s : State) : (complete s).cb = s.cb := rfl
@[simp] theorem complete_mbv (s : State) : (complete s).mbv = s.mbv := rfl
@[simp] theorem complete_sf (s : State) : (complete s).sf = s.sf := rfl
@[simp] theorem complete_sigt (s : State) : (complete s).sigt = s.sigt := rfl
@[simp] theorem complete_reft (s : State) : (complete s).reft = s.reft := rfl
@[simp] theorem complete_sgnt (s : State) : (complete s).sgnt = s.sgnt := rfl
@[simp] theorem complete_bands (s : State) : (complete s).bands = s.bands := rfl
@[simp] theorem complete_used (s : State) : (complete s).used = s.used := rfl
@[simp] theorem complete_pending (s : State) : (complete s).pending = false := rfl
@[simp] theorem complete_hostQ (s : State) : (complete s).hostQ = s.hostQ := rfl
@[simp] theorem complete_busData (s : State) : (complete s).busData = s.busData := rfl
@[simp] theorem complete_freeCtr (s : State) : (complete s).freeCtr = s.freeCtr := rfl

/-! ## Errors (R222) -/

@[simp] theorem raiseErr_ieDone (e : Err) (s : State) : (raiseErr e s).ieDone = s.ieDone := rfl
@[simp] theorem raiseErr_ieErr (e : Err) (s : State) : (raiseErr e s).ieErr = s.ieErr := rfl
@[simp] theorem raiseErr_favorSpeed (e : Err) (s : State) : (raiseErr e s).favorSpeed = s.favorSpeed := rfl
@[simp] theorem raiseErr_ieDoneTaken (e : Err) (s : State) : (raiseErr e s).ieDoneTaken = s.ieDoneTaken := rfl
@[simp] theorem raiseErr_ieErrTaken (e : Err) (s : State) : (raiseErr e s).ieErrTaken = s.ieErrTaken := rfl
@[simp] theorem raiseErr_favorTaken (e : Err) (s : State) : (raiseErr e s).favorTaken = s.favorTaken := rfl
@[simp] theorem raiseErr_busy (e : Err) (s : State) : (raiseErr e s).busy = false := rfl
@[simp] theorem raiseErr_done (e : Err) (s : State) : (raiseErr e s).done = true := rfl
@[simp] theorem raiseErr_err (e : Err) (s : State) : (raiseErr e s).err = true := rfl
@[simp] theorem raiseErr_haz (e : Err) (s : State) : (raiseErr e s).haz = s.haz := rfl
@[simp] theorem raiseErr_geom (e : Err) (s : State) : (raiseErr e s).geom = s.geom := rfl
@[simp] theorem raiseErr_errcode (e : Err) (s : State) : (raiseErr e s).errcode = e.code.code := rfl
@[simp] theorem raiseErr_errcmd (e : Err) (s : State) : (raiseErr e s).errcmd = s.cmd := rfl
@[simp] theorem raiseErr_errarg (e : Err) (s : State) : (raiseErr e s).errarg = reg32 e.info := rfl
@[simp] theorem raiseErr_cmd (e : Err) (s : State) : (raiseErr e s).cmd = s.cmd := rfl
@[simp] theorem raiseErr_arg0 (e : Err) (s : State) : (raiseErr e s).arg0 = s.arg0 := rfl
@[simp] theorem raiseErr_arg1 (e : Err) (s : State) : (raiseErr e s).arg1 = s.arg1 := rfl
@[simp] theorem raiseErr_arg2 (e : Err) (s : State) : (raiseErr e s).arg2 = s.arg2 := rfl
@[simp] theorem raiseErr_result0 (e : Err) (s : State) : (raiseErr e s).result0 = s.result0 := rfl
@[simp] theorem raiseErr_result1 (e : Err) (s : State) : (raiseErr e s).result1 = s.result1 := rfl
@[simp] theorem raiseErr_result2 (e : Err) (s : State) : (raiseErr e s).result2 = s.result2 := rfl
@[simp] theorem raiseErr_wordlen (e : Err) (s : State) : (raiseErr e s).wordlen = s.wordlen := rfl
@[simp] theorem raiseErr_mbhdr (e : Err) (s : State) : (raiseErr e s).mbhdr = s.mbhdr := rfl
@[simp] theorem raiseErr_nplanes (e : Err) (s : State) : (raiseErr e s).nplanes = s.nplanes := rfl
@[simp] theorem raiseErr_vpos (e : Err) (s : State) : (raiseErr e s).vpos = s.vpos := rfl
@[simp] theorem raiseErr_vlim (e : Err) (s : State) : (raiseErr e s).vlim = s.vlim := rfl
@[simp] theorem raiseErr_maxAbs (e : Err) (s : State) : (raiseErr e s).maxAbs = s.maxAbs := rfl
@[simp] theorem raiseErr_geomW (e : Err) (s : State) : (raiseErr e s).geomW = s.geomW := rfl
@[simp] theorem raiseErr_geomH (e : Err) (s : State) : (raiseErr e s).geomH = s.geomH := rfl
@[simp] theorem raiseErr_geomL (e : Err) (s : State) : (raiseErr e s).geomL = s.geomL := rfl
@[simp] theorem raiseErr_capBand (e : Err) (s : State) : (raiseErr e s).capBand = s.capBand := rfl
@[simp] theorem raiseErr_cb (e : Err) (s : State) : (raiseErr e s).cb = s.cb := rfl
@[simp] theorem raiseErr_mbv (e : Err) (s : State) : (raiseErr e s).mbv = s.mbv := rfl
@[simp] theorem raiseErr_sf (e : Err) (s : State) : (raiseErr e s).sf = s.sf := rfl
@[simp] theorem raiseErr_sigt (e : Err) (s : State) : (raiseErr e s).sigt = s.sigt := rfl
@[simp] theorem raiseErr_reft (e : Err) (s : State) : (raiseErr e s).reft = s.reft := rfl
@[simp] theorem raiseErr_sgnt (e : Err) (s : State) : (raiseErr e s).sgnt = s.sgnt := rfl
@[simp] theorem raiseErr_bands (e : Err) (s : State) : (raiseErr e s).bands = s.bands := rfl
@[simp] theorem raiseErr_used (e : Err) (s : State) : (raiseErr e s).used = s.used := rfl
@[simp] theorem raiseErr_pending (e : Err) (s : State) : (raiseErr e s).pending = false := rfl
@[simp] theorem raiseErr_hostQ (e : Err) (s : State) : (raiseErr e s).hostQ = s.hostQ := rfl
@[simp] theorem raiseErr_busData (e : Err) (s : State) : (raiseErr e s).busData = s.busData := rfl
@[simp] theorem raiseErr_freeCtr (e : Err) (s : State) : (raiseErr e s).freeCtr = s.freeCtr := rfl

/-! ## Acknowledgement (R227) -/

@[simp] theorem acknowledgeErr_ieDone (s : State) : (acknowledgeErr s).ieDone = s.ieDone := rfl
@[simp] theorem acknowledgeErr_ieErr (s : State) : (acknowledgeErr s).ieErr = s.ieErr := rfl
@[simp] theorem acknowledgeErr_favorSpeed (s : State) : (acknowledgeErr s).favorSpeed = s.favorSpeed := rfl
@[simp] theorem acknowledgeErr_ieDoneTaken (s : State) : (acknowledgeErr s).ieDoneTaken = s.ieDoneTaken := rfl
@[simp] theorem acknowledgeErr_ieErrTaken (s : State) : (acknowledgeErr s).ieErrTaken = s.ieErrTaken := rfl
@[simp] theorem acknowledgeErr_favorTaken (s : State) : (acknowledgeErr s).favorTaken = s.favorTaken := rfl
@[simp] theorem acknowledgeErr_busy (s : State) : (acknowledgeErr s).busy = s.busy := rfl
@[simp] theorem acknowledgeErr_done (s : State) : (acknowledgeErr s).done = s.done := rfl
@[simp] theorem acknowledgeErr_err (s : State) : (acknowledgeErr s).err = false := rfl
@[simp] theorem acknowledgeErr_haz (s : State) : (acknowledgeErr s).haz = s.haz := rfl
@[simp] theorem acknowledgeErr_geom (s : State) : (acknowledgeErr s).geom = s.geom := rfl
@[simp] theorem acknowledgeErr_errcode (s : State) : (acknowledgeErr s).errcode = 0#8 := rfl
@[simp] theorem acknowledgeErr_errcmd (s : State) : (acknowledgeErr s).errcmd = 0#32 := rfl
@[simp] theorem acknowledgeErr_errarg (s : State) : (acknowledgeErr s).errarg = 0#32 := rfl
@[simp] theorem acknowledgeErr_cmd (s : State) : (acknowledgeErr s).cmd = s.cmd := rfl
@[simp] theorem acknowledgeErr_arg0 (s : State) : (acknowledgeErr s).arg0 = s.arg0 := rfl
@[simp] theorem acknowledgeErr_arg1 (s : State) : (acknowledgeErr s).arg1 = s.arg1 := rfl
@[simp] theorem acknowledgeErr_arg2 (s : State) : (acknowledgeErr s).arg2 = s.arg2 := rfl
@[simp] theorem acknowledgeErr_result0 (s : State) : (acknowledgeErr s).result0 = s.result0 := rfl
@[simp] theorem acknowledgeErr_result1 (s : State) : (acknowledgeErr s).result1 = s.result1 := rfl
@[simp] theorem acknowledgeErr_result2 (s : State) : (acknowledgeErr s).result2 = s.result2 := rfl
@[simp] theorem acknowledgeErr_wordlen (s : State) : (acknowledgeErr s).wordlen = s.wordlen := rfl
@[simp] theorem acknowledgeErr_mbhdr (s : State) : (acknowledgeErr s).mbhdr = s.mbhdr := rfl
@[simp] theorem acknowledgeErr_nplanes (s : State) : (acknowledgeErr s).nplanes = s.nplanes := rfl
@[simp] theorem acknowledgeErr_vpos (s : State) : (acknowledgeErr s).vpos = s.vpos := rfl
@[simp] theorem acknowledgeErr_vlim (s : State) : (acknowledgeErr s).vlim = s.vlim := rfl
@[simp] theorem acknowledgeErr_maxAbs (s : State) : (acknowledgeErr s).maxAbs = s.maxAbs := rfl
@[simp] theorem acknowledgeErr_geomW (s : State) : (acknowledgeErr s).geomW = s.geomW := rfl
@[simp] theorem acknowledgeErr_geomH (s : State) : (acknowledgeErr s).geomH = s.geomH := rfl
@[simp] theorem acknowledgeErr_geomL (s : State) : (acknowledgeErr s).geomL = s.geomL := rfl
@[simp] theorem acknowledgeErr_capBand (s : State) : (acknowledgeErr s).capBand = s.capBand := rfl
@[simp] theorem acknowledgeErr_cb (s : State) : (acknowledgeErr s).cb = s.cb := rfl
@[simp] theorem acknowledgeErr_mbv (s : State) : (acknowledgeErr s).mbv = s.mbv := rfl
@[simp] theorem acknowledgeErr_sf (s : State) : (acknowledgeErr s).sf = s.sf := rfl
@[simp] theorem acknowledgeErr_sigt (s : State) : (acknowledgeErr s).sigt = s.sigt := rfl
@[simp] theorem acknowledgeErr_reft (s : State) : (acknowledgeErr s).reft = s.reft := rfl
@[simp] theorem acknowledgeErr_sgnt (s : State) : (acknowledgeErr s).sgnt = s.sgnt := rfl
@[simp] theorem acknowledgeErr_bands (s : State) : (acknowledgeErr s).bands = s.bands := rfl
@[simp] theorem acknowledgeErr_used (s : State) : (acknowledgeErr s).used = s.used := rfl
@[simp] theorem acknowledgeErr_pending (s : State) : (acknowledgeErr s).pending = s.pending := rfl
@[simp] theorem acknowledgeErr_hostQ (s : State) : (acknowledgeErr s).hostQ = s.hostQ := rfl
@[simp] theorem acknowledgeErr_busData (s : State) : (acknowledgeErr s).busData = s.busData := rfl
@[simp] theorem acknowledgeErr_freeCtr (s : State) : (acknowledgeErr s).freeCtr = s.freeCtr := rfl

/-! ## Storing a band (R114) -/

@[simp] theorem storeBand_ieDone (l : Nat) (o : Orient) (cs : List Word) (s : State) : (storeBand l o cs s).ieDone = s.ieDone := rfl
@[simp] theorem storeBand_ieErr (l : Nat) (o : Orient) (cs : List Word) (s : State) : (storeBand l o cs s).ieErr = s.ieErr := rfl
@[simp] theorem storeBand_favorSpeed (l : Nat) (o : Orient) (cs : List Word) (s : State) : (storeBand l o cs s).favorSpeed = s.favorSpeed := rfl
@[simp] theorem storeBand_ieDoneTaken (l : Nat) (o : Orient) (cs : List Word) (s : State) : (storeBand l o cs s).ieDoneTaken = s.ieDoneTaken := rfl
@[simp] theorem storeBand_ieErrTaken (l : Nat) (o : Orient) (cs : List Word) (s : State) : (storeBand l o cs s).ieErrTaken = s.ieErrTaken := rfl
@[simp] theorem storeBand_favorTaken (l : Nat) (o : Orient) (cs : List Word) (s : State) : (storeBand l o cs s).favorTaken = s.favorTaken := rfl
@[simp] theorem storeBand_busy (l : Nat) (o : Orient) (cs : List Word) (s : State) : (storeBand l o cs s).busy = s.busy := rfl
@[simp] theorem storeBand_done (l : Nat) (o : Orient) (cs : List Word) (s : State) : (storeBand l o cs s).done = s.done := rfl
@[simp] theorem storeBand_err (l : Nat) (o : Orient) (cs : List Word) (s : State) : (storeBand l o cs s).err = s.err := rfl
@[simp] theorem storeBand_haz (l : Nat) (o : Orient) (cs : List Word) (s : State) : (storeBand l o cs s).haz = s.haz := rfl
@[simp] theorem storeBand_geom (l : Nat) (o : Orient) (cs : List Word) (s : State) : (storeBand l o cs s).geom = s.geom := rfl
@[simp] theorem storeBand_errcode (l : Nat) (o : Orient) (cs : List Word) (s : State) : (storeBand l o cs s).errcode = s.errcode := rfl
@[simp] theorem storeBand_errcmd (l : Nat) (o : Orient) (cs : List Word) (s : State) : (storeBand l o cs s).errcmd = s.errcmd := rfl
@[simp] theorem storeBand_errarg (l : Nat) (o : Orient) (cs : List Word) (s : State) : (storeBand l o cs s).errarg = s.errarg := rfl
@[simp] theorem storeBand_cmd (l : Nat) (o : Orient) (cs : List Word) (s : State) : (storeBand l o cs s).cmd = s.cmd := rfl
@[simp] theorem storeBand_arg0 (l : Nat) (o : Orient) (cs : List Word) (s : State) : (storeBand l o cs s).arg0 = s.arg0 := rfl
@[simp] theorem storeBand_arg1 (l : Nat) (o : Orient) (cs : List Word) (s : State) : (storeBand l o cs s).arg1 = s.arg1 := rfl
@[simp] theorem storeBand_arg2 (l : Nat) (o : Orient) (cs : List Word) (s : State) : (storeBand l o cs s).arg2 = s.arg2 := rfl
@[simp] theorem storeBand_result0 (l : Nat) (o : Orient) (cs : List Word) (s : State) : (storeBand l o cs s).result0 = s.result0 := rfl
@[simp] theorem storeBand_result1 (l : Nat) (o : Orient) (cs : List Word) (s : State) : (storeBand l o cs s).result1 = s.result1 := rfl
@[simp] theorem storeBand_result2 (l : Nat) (o : Orient) (cs : List Word) (s : State) : (storeBand l o cs s).result2 = s.result2 := rfl
@[simp] theorem storeBand_wordlen (l : Nat) (o : Orient) (cs : List Word) (s : State) : (storeBand l o cs s).wordlen = s.wordlen := rfl
@[simp] theorem storeBand_mbhdr (l : Nat) (o : Orient) (cs : List Word) (s : State) : (storeBand l o cs s).mbhdr = s.mbhdr := rfl
@[simp] theorem storeBand_nplanes (l : Nat) (o : Orient) (cs : List Word) (s : State) : (storeBand l o cs s).nplanes = s.nplanes := rfl
@[simp] theorem storeBand_vpos (l : Nat) (o : Orient) (cs : List Word) (s : State) : (storeBand l o cs s).vpos = s.vpos := rfl
@[simp] theorem storeBand_vlim (l : Nat) (o : Orient) (cs : List Word) (s : State) : (storeBand l o cs s).vlim = s.vlim := rfl
@[simp] theorem storeBand_maxAbs (l : Nat) (o : Orient) (cs : List Word) (s : State) : (storeBand l o cs s).maxAbs = s.maxAbs := rfl
@[simp] theorem storeBand_geomW (l : Nat) (o : Orient) (cs : List Word) (s : State) : (storeBand l o cs s).geomW = s.geomW := rfl
@[simp] theorem storeBand_geomH (l : Nat) (o : Orient) (cs : List Word) (s : State) : (storeBand l o cs s).geomH = s.geomH := rfl
@[simp] theorem storeBand_geomL (l : Nat) (o : Orient) (cs : List Word) (s : State) : (storeBand l o cs s).geomL = s.geomL := rfl
@[simp] theorem storeBand_capBand (l : Nat) (o : Orient) (cs : List Word) (s : State) : (storeBand l o cs s).capBand = s.capBand := rfl
@[simp] theorem storeBand_cb (l : Nat) (o : Orient) (cs : List Word) (s : State) : (storeBand l o cs s).cb = s.cb := rfl
@[simp] theorem storeBand_mbv (l : Nat) (o : Orient) (cs : List Word) (s : State) : (storeBand l o cs s).mbv = s.mbv := rfl
@[simp] theorem storeBand_sf (l : Nat) (o : Orient) (cs : List Word) (s : State) : (storeBand l o cs s).sf = s.sf := rfl
@[simp] theorem storeBand_sigt (l : Nat) (o : Orient) (cs : List Word) (s : State) : (storeBand l o cs s).sigt = s.sigt := rfl
@[simp] theorem storeBand_reft (l : Nat) (o : Orient) (cs : List Word) (s : State) : (storeBand l o cs s).reft = s.reft := rfl
@[simp] theorem storeBand_sgnt (l : Nat) (o : Orient) (cs : List Word) (s : State) : (storeBand l o cs s).sgnt = s.sgnt := rfl
@[simp] theorem storeBand_bands (l : Nat) (o : Orient) (cs : List Word) (s : State) : (storeBand l o cs s).bands = putBand s.bands (bandCell l o) cs := rfl
@[simp] theorem storeBand_used (l : Nat) (o : Orient) (cs : List Word) (s : State) : (storeBand l o cs s).used = (if s.alloc l o then s.used else s.used + s.bandSize l o) := rfl
@[simp] theorem storeBand_pending (l : Nat) (o : Orient) (cs : List Word) (s : State) : (storeBand l o cs s).pending = s.pending := rfl
@[simp] theorem storeBand_hostQ (l : Nat) (o : Orient) (cs : List Word) (s : State) : (storeBand l o cs s).hostQ = s.hostQ := rfl
@[simp] theorem storeBand_busData (l : Nat) (o : Orient) (cs : List Word) (s : State) : (storeBand l o cs s).busData = s.busData := rfl
@[simp] theorem storeBand_freeCtr (l : Nat) (o : Orient) (cs : List Word) (s : State) : (storeBand l o cs s).freeCtr = s.freeCtr := rfl

/-! ## Freeing a band (R114) -/

@[simp] theorem freeBand_ieDone (l : Nat) (o : Orient) (s : State) : (freeBand l o s).ieDone = s.ieDone := rfl
@[simp] theorem freeBand_ieErr (l : Nat) (o : Orient) (s : State) : (freeBand l o s).ieErr = s.ieErr := rfl
@[simp] theorem freeBand_favorSpeed (l : Nat) (o : Orient) (s : State) : (freeBand l o s).favorSpeed = s.favorSpeed := rfl
@[simp] theorem freeBand_ieDoneTaken (l : Nat) (o : Orient) (s : State) : (freeBand l o s).ieDoneTaken = s.ieDoneTaken := rfl
@[simp] theorem freeBand_ieErrTaken (l : Nat) (o : Orient) (s : State) : (freeBand l o s).ieErrTaken = s.ieErrTaken := rfl
@[simp] theorem freeBand_favorTaken (l : Nat) (o : Orient) (s : State) : (freeBand l o s).favorTaken = s.favorTaken := rfl
@[simp] theorem freeBand_busy (l : Nat) (o : Orient) (s : State) : (freeBand l o s).busy = s.busy := rfl
@[simp] theorem freeBand_done (l : Nat) (o : Orient) (s : State) : (freeBand l o s).done = s.done := rfl
@[simp] theorem freeBand_err (l : Nat) (o : Orient) (s : State) : (freeBand l o s).err = s.err := rfl
@[simp] theorem freeBand_haz (l : Nat) (o : Orient) (s : State) : (freeBand l o s).haz = s.haz := rfl
@[simp] theorem freeBand_geom (l : Nat) (o : Orient) (s : State) : (freeBand l o s).geom = s.geom := rfl
@[simp] theorem freeBand_errcode (l : Nat) (o : Orient) (s : State) : (freeBand l o s).errcode = s.errcode := rfl
@[simp] theorem freeBand_errcmd (l : Nat) (o : Orient) (s : State) : (freeBand l o s).errcmd = s.errcmd := rfl
@[simp] theorem freeBand_errarg (l : Nat) (o : Orient) (s : State) : (freeBand l o s).errarg = s.errarg := rfl
@[simp] theorem freeBand_cmd (l : Nat) (o : Orient) (s : State) : (freeBand l o s).cmd = s.cmd := rfl
@[simp] theorem freeBand_arg0 (l : Nat) (o : Orient) (s : State) : (freeBand l o s).arg0 = s.arg0 := rfl
@[simp] theorem freeBand_arg1 (l : Nat) (o : Orient) (s : State) : (freeBand l o s).arg1 = s.arg1 := rfl
@[simp] theorem freeBand_arg2 (l : Nat) (o : Orient) (s : State) : (freeBand l o s).arg2 = s.arg2 := rfl
@[simp] theorem freeBand_result0 (l : Nat) (o : Orient) (s : State) : (freeBand l o s).result0 = s.result0 := rfl
@[simp] theorem freeBand_result1 (l : Nat) (o : Orient) (s : State) : (freeBand l o s).result1 = s.result1 := rfl
@[simp] theorem freeBand_result2 (l : Nat) (o : Orient) (s : State) : (freeBand l o s).result2 = s.result2 := rfl
@[simp] theorem freeBand_wordlen (l : Nat) (o : Orient) (s : State) : (freeBand l o s).wordlen = s.wordlen := rfl
@[simp] theorem freeBand_mbhdr (l : Nat) (o : Orient) (s : State) : (freeBand l o s).mbhdr = s.mbhdr := rfl
@[simp] theorem freeBand_nplanes (l : Nat) (o : Orient) (s : State) : (freeBand l o s).nplanes = s.nplanes := rfl
@[simp] theorem freeBand_vpos (l : Nat) (o : Orient) (s : State) : (freeBand l o s).vpos = s.vpos := rfl
@[simp] theorem freeBand_vlim (l : Nat) (o : Orient) (s : State) : (freeBand l o s).vlim = s.vlim := rfl
@[simp] theorem freeBand_maxAbs (l : Nat) (o : Orient) (s : State) : (freeBand l o s).maxAbs = s.maxAbs := rfl
@[simp] theorem freeBand_geomW (l : Nat) (o : Orient) (s : State) : (freeBand l o s).geomW = s.geomW := rfl
@[simp] theorem freeBand_geomH (l : Nat) (o : Orient) (s : State) : (freeBand l o s).geomH = s.geomH := rfl
@[simp] theorem freeBand_geomL (l : Nat) (o : Orient) (s : State) : (freeBand l o s).geomL = s.geomL := rfl
@[simp] theorem freeBand_capBand (l : Nat) (o : Orient) (s : State) : (freeBand l o s).capBand = s.capBand := rfl
@[simp] theorem freeBand_cb (l : Nat) (o : Orient) (s : State) : (freeBand l o s).cb = s.cb := rfl
@[simp] theorem freeBand_mbv (l : Nat) (o : Orient) (s : State) : (freeBand l o s).mbv = s.mbv := rfl
@[simp] theorem freeBand_sf (l : Nat) (o : Orient) (s : State) : (freeBand l o s).sf = s.sf := rfl
@[simp] theorem freeBand_sigt (l : Nat) (o : Orient) (s : State) : (freeBand l o s).sigt = s.sigt := rfl
@[simp] theorem freeBand_reft (l : Nat) (o : Orient) (s : State) : (freeBand l o s).reft = s.reft := rfl
@[simp] theorem freeBand_sgnt (l : Nat) (o : Orient) (s : State) : (freeBand l o s).sgnt = s.sgnt := rfl
@[simp] theorem freeBand_bands (l : Nat) (o : Orient) (s : State) : (freeBand l o s).bands = dropBand s.bands (bandCell l o) := rfl
@[simp] theorem freeBand_used (l : Nat) (o : Orient) (s : State) : (freeBand l o s).used = (if s.alloc l o then s.used - s.bandSize l o else s.used) := rfl
@[simp] theorem freeBand_pending (l : Nat) (o : Orient) (s : State) : (freeBand l o s).pending = s.pending := rfl
@[simp] theorem freeBand_hostQ (l : Nat) (o : Orient) (s : State) : (freeBand l o s).hostQ = s.hostQ := rfl
@[simp] theorem freeBand_busData (l : Nat) (o : Orient) (s : State) : (freeBand l o s).busData = s.busData := rfl
@[simp] theorem freeBand_freeCtr (l : Nat) (o : Orient) (s : State) : (freeBand l o s).freeCtr = s.freeCtr := rfl

/-! ## Read data (R59) -/

@[simp] theorem deliver_ieDone (v : Word) (s : State) : (deliver v s).ieDone = s.ieDone := rfl
@[simp] theorem deliver_ieErr (v : Word) (s : State) : (deliver v s).ieErr = s.ieErr := rfl
@[simp] theorem deliver_favorSpeed (v : Word) (s : State) : (deliver v s).favorSpeed = s.favorSpeed := rfl
@[simp] theorem deliver_ieDoneTaken (v : Word) (s : State) : (deliver v s).ieDoneTaken = s.ieDoneTaken := rfl
@[simp] theorem deliver_ieErrTaken (v : Word) (s : State) : (deliver v s).ieErrTaken = s.ieErrTaken := rfl
@[simp] theorem deliver_favorTaken (v : Word) (s : State) : (deliver v s).favorTaken = s.favorTaken := rfl
@[simp] theorem deliver_busy (v : Word) (s : State) : (deliver v s).busy = s.busy := rfl
@[simp] theorem deliver_done (v : Word) (s : State) : (deliver v s).done = s.done := rfl
@[simp] theorem deliver_err (v : Word) (s : State) : (deliver v s).err = s.err := rfl
@[simp] theorem deliver_haz (v : Word) (s : State) : (deliver v s).haz = s.haz := rfl
@[simp] theorem deliver_geom (v : Word) (s : State) : (deliver v s).geom = s.geom := rfl
@[simp] theorem deliver_errcode (v : Word) (s : State) : (deliver v s).errcode = s.errcode := rfl
@[simp] theorem deliver_errcmd (v : Word) (s : State) : (deliver v s).errcmd = s.errcmd := rfl
@[simp] theorem deliver_errarg (v : Word) (s : State) : (deliver v s).errarg = s.errarg := rfl
@[simp] theorem deliver_cmd (v : Word) (s : State) : (deliver v s).cmd = s.cmd := rfl
@[simp] theorem deliver_arg0 (v : Word) (s : State) : (deliver v s).arg0 = s.arg0 := rfl
@[simp] theorem deliver_arg1 (v : Word) (s : State) : (deliver v s).arg1 = s.arg1 := rfl
@[simp] theorem deliver_arg2 (v : Word) (s : State) : (deliver v s).arg2 = s.arg2 := rfl
@[simp] theorem deliver_result0 (v : Word) (s : State) : (deliver v s).result0 = s.result0 := rfl
@[simp] theorem deliver_result1 (v : Word) (s : State) : (deliver v s).result1 = s.result1 := rfl
@[simp] theorem deliver_result2 (v : Word) (s : State) : (deliver v s).result2 = s.result2 := rfl
@[simp] theorem deliver_wordlen (v : Word) (s : State) : (deliver v s).wordlen = s.wordlen := rfl
@[simp] theorem deliver_mbhdr (v : Word) (s : State) : (deliver v s).mbhdr = s.mbhdr := rfl
@[simp] theorem deliver_nplanes (v : Word) (s : State) : (deliver v s).nplanes = s.nplanes := rfl
@[simp] theorem deliver_vpos (v : Word) (s : State) : (deliver v s).vpos = s.vpos := rfl
@[simp] theorem deliver_vlim (v : Word) (s : State) : (deliver v s).vlim = s.vlim := rfl
@[simp] theorem deliver_maxAbs (v : Word) (s : State) : (deliver v s).maxAbs = s.maxAbs := rfl
@[simp] theorem deliver_geomW (v : Word) (s : State) : (deliver v s).geomW = s.geomW := rfl
@[simp] theorem deliver_geomH (v : Word) (s : State) : (deliver v s).geomH = s.geomH := rfl
@[simp] theorem deliver_geomL (v : Word) (s : State) : (deliver v s).geomL = s.geomL := rfl
@[simp] theorem deliver_capBand (v : Word) (s : State) : (deliver v s).capBand = s.capBand := rfl
@[simp] theorem deliver_cb (v : Word) (s : State) : (deliver v s).cb = s.cb := rfl
@[simp] theorem deliver_mbv (v : Word) (s : State) : (deliver v s).mbv = s.mbv := rfl
@[simp] theorem deliver_sf (v : Word) (s : State) : (deliver v s).sf = s.sf := rfl
@[simp] theorem deliver_sigt (v : Word) (s : State) : (deliver v s).sigt = s.sigt := rfl
@[simp] theorem deliver_reft (v : Word) (s : State) : (deliver v s).reft = s.reft := rfl
@[simp] theorem deliver_sgnt (v : Word) (s : State) : (deliver v s).sgnt = s.sgnt := rfl
@[simp] theorem deliver_bands (v : Word) (s : State) : (deliver v s).bands = s.bands := rfl
@[simp] theorem deliver_used (v : Word) (s : State) : (deliver v s).used = s.used := rfl
@[simp] theorem deliver_pending (v : Word) (s : State) : (deliver v s).pending = s.pending := rfl
@[simp] theorem deliver_hostQ (v : Word) (s : State) : (deliver v s).hostQ = s.hostQ := rfl
@[simp] theorem deliver_busData (v : Word) (s : State) : (deliver v s).busData = v := rfl
@[simp] theorem deliver_freeCtr (v : Word) (s : State) : (deliver v s).freeCtr = s.freeCtr := rfl

/-! ## Refused writes (R231) -/

@[simp] theorem hazard_ieDone (s : State) : (hazard s).ieDone = s.ieDone := rfl
@[simp] theorem hazard_ieErr (s : State) : (hazard s).ieErr = s.ieErr := rfl
@[simp] theorem hazard_favorSpeed (s : State) : (hazard s).favorSpeed = s.favorSpeed := rfl
@[simp] theorem hazard_ieDoneTaken (s : State) : (hazard s).ieDoneTaken = s.ieDoneTaken := rfl
@[simp] theorem hazard_ieErrTaken (s : State) : (hazard s).ieErrTaken = s.ieErrTaken := rfl
@[simp] theorem hazard_favorTaken (s : State) : (hazard s).favorTaken = s.favorTaken := rfl
@[simp] theorem hazard_busy (s : State) : (hazard s).busy = s.busy := rfl
@[simp] theorem hazard_done (s : State) : (hazard s).done = s.done := rfl
@[simp] theorem hazard_err (s : State) : (hazard s).err = s.err := rfl
@[simp] theorem hazard_haz (s : State) : (hazard s).haz = true := rfl
@[simp] theorem hazard_geom (s : State) : (hazard s).geom = s.geom := rfl
@[simp] theorem hazard_errcode (s : State) : (hazard s).errcode = s.errcode := rfl
@[simp] theorem hazard_errcmd (s : State) : (hazard s).errcmd = s.errcmd := rfl
@[simp] theorem hazard_errarg (s : State) : (hazard s).errarg = s.errarg := rfl
@[simp] theorem hazard_cmd (s : State) : (hazard s).cmd = s.cmd := rfl
@[simp] theorem hazard_arg0 (s : State) : (hazard s).arg0 = s.arg0 := rfl
@[simp] theorem hazard_arg1 (s : State) : (hazard s).arg1 = s.arg1 := rfl
@[simp] theorem hazard_arg2 (s : State) : (hazard s).arg2 = s.arg2 := rfl
@[simp] theorem hazard_result0 (s : State) : (hazard s).result0 = s.result0 := rfl
@[simp] theorem hazard_result1 (s : State) : (hazard s).result1 = s.result1 := rfl
@[simp] theorem hazard_result2 (s : State) : (hazard s).result2 = s.result2 := rfl
@[simp] theorem hazard_wordlen (s : State) : (hazard s).wordlen = s.wordlen := rfl
@[simp] theorem hazard_mbhdr (s : State) : (hazard s).mbhdr = s.mbhdr := rfl
@[simp] theorem hazard_nplanes (s : State) : (hazard s).nplanes = s.nplanes := rfl
@[simp] theorem hazard_vpos (s : State) : (hazard s).vpos = s.vpos := rfl
@[simp] theorem hazard_vlim (s : State) : (hazard s).vlim = s.vlim := rfl
@[simp] theorem hazard_maxAbs (s : State) : (hazard s).maxAbs = s.maxAbs := rfl
@[simp] theorem hazard_geomW (s : State) : (hazard s).geomW = s.geomW := rfl
@[simp] theorem hazard_geomH (s : State) : (hazard s).geomH = s.geomH := rfl
@[simp] theorem hazard_geomL (s : State) : (hazard s).geomL = s.geomL := rfl
@[simp] theorem hazard_capBand (s : State) : (hazard s).capBand = s.capBand := rfl
@[simp] theorem hazard_cb (s : State) : (hazard s).cb = s.cb := rfl
@[simp] theorem hazard_mbv (s : State) : (hazard s).mbv = s.mbv := rfl
@[simp] theorem hazard_sf (s : State) : (hazard s).sf = s.sf := rfl
@[simp] theorem hazard_sigt (s : State) : (hazard s).sigt = s.sigt := rfl
@[simp] theorem hazard_reft (s : State) : (hazard s).reft = s.reft := rfl
@[simp] theorem hazard_sgnt (s : State) : (hazard s).sgnt = s.sgnt := rfl
@[simp] theorem hazard_bands (s : State) : (hazard s).bands = s.bands := rfl
@[simp] theorem hazard_used (s : State) : (hazard s).used = s.used := rfl
@[simp] theorem hazard_pending (s : State) : (hazard s).pending = s.pending := rfl
@[simp] theorem hazard_hostQ (s : State) : (hazard s).hostQ = s.hostQ := rfl
@[simp] theorem hazard_busData (s : State) : (hazard s).busData = s.busData := rfl
@[simp] theorem hazard_freeCtr (s : State) : (hazard s).freeCtr = s.freeCtr := rfl

/-! ## CTRL taking effect (R23) -/

@[simp] theorem takeCtrl_ieDone (s : State) : (takeCtrl s).ieDone = s.ieDone := rfl
@[simp] theorem takeCtrl_ieErr (s : State) : (takeCtrl s).ieErr = s.ieErr := rfl
@[simp] theorem takeCtrl_favorSpeed (s : State) : (takeCtrl s).favorSpeed = s.favorSpeed := rfl
@[simp] theorem takeCtrl_ieDoneTaken (s : State) : (takeCtrl s).ieDoneTaken = s.ieDone := rfl
@[simp] theorem takeCtrl_ieErrTaken (s : State) : (takeCtrl s).ieErrTaken = s.ieErr := rfl
@[simp] theorem takeCtrl_favorTaken (s : State) : (takeCtrl s).favorTaken = s.favorSpeed := rfl
@[simp] theorem takeCtrl_busy (s : State) : (takeCtrl s).busy = s.busy := rfl
@[simp] theorem takeCtrl_done (s : State) : (takeCtrl s).done = s.done := rfl
@[simp] theorem takeCtrl_err (s : State) : (takeCtrl s).err = s.err := rfl
@[simp] theorem takeCtrl_haz (s : State) : (takeCtrl s).haz = s.haz := rfl
@[simp] theorem takeCtrl_geom (s : State) : (takeCtrl s).geom = s.geom := rfl
@[simp] theorem takeCtrl_errcode (s : State) : (takeCtrl s).errcode = s.errcode := rfl
@[simp] theorem takeCtrl_errcmd (s : State) : (takeCtrl s).errcmd = s.errcmd := rfl
@[simp] theorem takeCtrl_errarg (s : State) : (takeCtrl s).errarg = s.errarg := rfl
@[simp] theorem takeCtrl_cmd (s : State) : (takeCtrl s).cmd = s.cmd := rfl
@[simp] theorem takeCtrl_arg0 (s : State) : (takeCtrl s).arg0 = s.arg0 := rfl
@[simp] theorem takeCtrl_arg1 (s : State) : (takeCtrl s).arg1 = s.arg1 := rfl
@[simp] theorem takeCtrl_arg2 (s : State) : (takeCtrl s).arg2 = s.arg2 := rfl
@[simp] theorem takeCtrl_result0 (s : State) : (takeCtrl s).result0 = s.result0 := rfl
@[simp] theorem takeCtrl_result1 (s : State) : (takeCtrl s).result1 = s.result1 := rfl
@[simp] theorem takeCtrl_result2 (s : State) : (takeCtrl s).result2 = s.result2 := rfl
@[simp] theorem takeCtrl_wordlen (s : State) : (takeCtrl s).wordlen = s.wordlen := rfl
@[simp] theorem takeCtrl_mbhdr (s : State) : (takeCtrl s).mbhdr = s.mbhdr := rfl
@[simp] theorem takeCtrl_nplanes (s : State) : (takeCtrl s).nplanes = s.nplanes := rfl
@[simp] theorem takeCtrl_vpos (s : State) : (takeCtrl s).vpos = s.vpos := rfl
@[simp] theorem takeCtrl_vlim (s : State) : (takeCtrl s).vlim = s.vlim := rfl
@[simp] theorem takeCtrl_maxAbs (s : State) : (takeCtrl s).maxAbs = s.maxAbs := rfl
@[simp] theorem takeCtrl_geomW (s : State) : (takeCtrl s).geomW = s.geomW := rfl
@[simp] theorem takeCtrl_geomH (s : State) : (takeCtrl s).geomH = s.geomH := rfl
@[simp] theorem takeCtrl_geomL (s : State) : (takeCtrl s).geomL = s.geomL := rfl
@[simp] theorem takeCtrl_capBand (s : State) : (takeCtrl s).capBand = s.capBand := rfl
@[simp] theorem takeCtrl_cb (s : State) : (takeCtrl s).cb = s.cb := rfl
@[simp] theorem takeCtrl_mbv (s : State) : (takeCtrl s).mbv = s.mbv := rfl
@[simp] theorem takeCtrl_sf (s : State) : (takeCtrl s).sf = s.sf := rfl
@[simp] theorem takeCtrl_sigt (s : State) : (takeCtrl s).sigt = s.sigt := rfl
@[simp] theorem takeCtrl_reft (s : State) : (takeCtrl s).reft = s.reft := rfl
@[simp] theorem takeCtrl_sgnt (s : State) : (takeCtrl s).sgnt = s.sgnt := rfl
@[simp] theorem takeCtrl_bands (s : State) : (takeCtrl s).bands = s.bands := rfl
@[simp] theorem takeCtrl_used (s : State) : (takeCtrl s).used = s.used := rfl
@[simp] theorem takeCtrl_pending (s : State) : (takeCtrl s).pending = s.pending := rfl
@[simp] theorem takeCtrl_hostQ (s : State) : (takeCtrl s).hostQ = s.hostQ := rfl
@[simp] theorem takeCtrl_busData (s : State) : (takeCtrl s).busData = s.busData := rfl
@[simp] theorem takeCtrl_freeCtr (s : State) : (takeCtrl s).freeCtr = s.freeCtr := rfl

/-! ## The enables of CTRL (R23) -/

@[simp] theorem setCtrl_ieDone (v : Word) (s : State) : (setCtrl v s).ieDone = v.getLsbD 0 := rfl
@[simp] theorem setCtrl_ieErr (v : Word) (s : State) : (setCtrl v s).ieErr = v.getLsbD 1 := rfl
@[simp] theorem setCtrl_favorSpeed (v : Word) (s : State) : (setCtrl v s).favorSpeed = v.getLsbD 2 := rfl
@[simp] theorem setCtrl_ieDoneTaken (v : Word) (s : State) : (setCtrl v s).ieDoneTaken = s.ieDoneTaken := rfl
@[simp] theorem setCtrl_ieErrTaken (v : Word) (s : State) : (setCtrl v s).ieErrTaken = s.ieErrTaken := rfl
@[simp] theorem setCtrl_favorTaken (v : Word) (s : State) : (setCtrl v s).favorTaken = s.favorTaken := rfl
@[simp] theorem setCtrl_busy (v : Word) (s : State) : (setCtrl v s).busy = s.busy := rfl
@[simp] theorem setCtrl_done (v : Word) (s : State) : (setCtrl v s).done = s.done := rfl
@[simp] theorem setCtrl_err (v : Word) (s : State) : (setCtrl v s).err = s.err := rfl
@[simp] theorem setCtrl_haz (v : Word) (s : State) : (setCtrl v s).haz = s.haz := rfl
@[simp] theorem setCtrl_geom (v : Word) (s : State) : (setCtrl v s).geom = s.geom := rfl
@[simp] theorem setCtrl_errcode (v : Word) (s : State) : (setCtrl v s).errcode = s.errcode := rfl
@[simp] theorem setCtrl_errcmd (v : Word) (s : State) : (setCtrl v s).errcmd = s.errcmd := rfl
@[simp] theorem setCtrl_errarg (v : Word) (s : State) : (setCtrl v s).errarg = s.errarg := rfl
@[simp] theorem setCtrl_cmd (v : Word) (s : State) : (setCtrl v s).cmd = s.cmd := rfl
@[simp] theorem setCtrl_arg0 (v : Word) (s : State) : (setCtrl v s).arg0 = s.arg0 := rfl
@[simp] theorem setCtrl_arg1 (v : Word) (s : State) : (setCtrl v s).arg1 = s.arg1 := rfl
@[simp] theorem setCtrl_arg2 (v : Word) (s : State) : (setCtrl v s).arg2 = s.arg2 := rfl
@[simp] theorem setCtrl_result0 (v : Word) (s : State) : (setCtrl v s).result0 = s.result0 := rfl
@[simp] theorem setCtrl_result1 (v : Word) (s : State) : (setCtrl v s).result1 = s.result1 := rfl
@[simp] theorem setCtrl_result2 (v : Word) (s : State) : (setCtrl v s).result2 = s.result2 := rfl
@[simp] theorem setCtrl_wordlen (v : Word) (s : State) : (setCtrl v s).wordlen = s.wordlen := rfl
@[simp] theorem setCtrl_mbhdr (v : Word) (s : State) : (setCtrl v s).mbhdr = s.mbhdr := rfl
@[simp] theorem setCtrl_nplanes (v : Word) (s : State) : (setCtrl v s).nplanes = s.nplanes := rfl
@[simp] theorem setCtrl_vpos (v : Word) (s : State) : (setCtrl v s).vpos = s.vpos := rfl
@[simp] theorem setCtrl_vlim (v : Word) (s : State) : (setCtrl v s).vlim = s.vlim := rfl
@[simp] theorem setCtrl_maxAbs (v : Word) (s : State) : (setCtrl v s).maxAbs = s.maxAbs := rfl
@[simp] theorem setCtrl_geomW (v : Word) (s : State) : (setCtrl v s).geomW = s.geomW := rfl
@[simp] theorem setCtrl_geomH (v : Word) (s : State) : (setCtrl v s).geomH = s.geomH := rfl
@[simp] theorem setCtrl_geomL (v : Word) (s : State) : (setCtrl v s).geomL = s.geomL := rfl
@[simp] theorem setCtrl_capBand (v : Word) (s : State) : (setCtrl v s).capBand = s.capBand := rfl
@[simp] theorem setCtrl_cb (v : Word) (s : State) : (setCtrl v s).cb = s.cb := rfl
@[simp] theorem setCtrl_mbv (v : Word) (s : State) : (setCtrl v s).mbv = s.mbv := rfl
@[simp] theorem setCtrl_sf (v : Word) (s : State) : (setCtrl v s).sf = s.sf := rfl
@[simp] theorem setCtrl_sigt (v : Word) (s : State) : (setCtrl v s).sigt = s.sigt := rfl
@[simp] theorem setCtrl_reft (v : Word) (s : State) : (setCtrl v s).reft = s.reft := rfl
@[simp] theorem setCtrl_sgnt (v : Word) (s : State) : (setCtrl v s).sgnt = s.sgnt := rfl
@[simp] theorem setCtrl_bands (v : Word) (s : State) : (setCtrl v s).bands = s.bands := rfl
@[simp] theorem setCtrl_used (v : Word) (s : State) : (setCtrl v s).used = s.used := rfl
@[simp] theorem setCtrl_pending (v : Word) (s : State) : (setCtrl v s).pending = s.pending := rfl
@[simp] theorem setCtrl_hostQ (v : Word) (s : State) : (setCtrl v s).hostQ = s.hostQ := rfl
@[simp] theorem setCtrl_busData (v : Word) (s : State) : (setCtrl v s).busData = s.busData := rfl
@[simp] theorem setCtrl_freeCtr (v : Word) (s : State) : (setCtrl v s).freeCtr = s.freeCtr := rfl

/-! ## An accepted command (R28) -/

@[simp] theorem acceptCmd_ieDone (w : Word) (s : State) : (acceptCmd w s).ieDone = s.ieDone := rfl
@[simp] theorem acceptCmd_ieErr (w : Word) (s : State) : (acceptCmd w s).ieErr = s.ieErr := rfl
@[simp] theorem acceptCmd_favorSpeed (w : Word) (s : State) : (acceptCmd w s).favorSpeed = s.favorSpeed := rfl
@[simp] theorem acceptCmd_ieDoneTaken (w : Word) (s : State) : (acceptCmd w s).ieDoneTaken = s.ieDone := rfl
@[simp] theorem acceptCmd_ieErrTaken (w : Word) (s : State) : (acceptCmd w s).ieErrTaken = s.ieErr := rfl
@[simp] theorem acceptCmd_favorTaken (w : Word) (s : State) : (acceptCmd w s).favorTaken = s.favorSpeed := rfl
@[simp] theorem acceptCmd_busy (w : Word) (s : State) : (acceptCmd w s).busy = true := rfl
@[simp] theorem acceptCmd_done (w : Word) (s : State) : (acceptCmd w s).done = s.done := rfl
@[simp] theorem acceptCmd_err (w : Word) (s : State) : (acceptCmd w s).err = s.err := rfl
@[simp] theorem acceptCmd_haz (w : Word) (s : State) : (acceptCmd w s).haz = s.haz := rfl
@[simp] theorem acceptCmd_geom (w : Word) (s : State) : (acceptCmd w s).geom = s.geom := rfl
@[simp] theorem acceptCmd_errcode (w : Word) (s : State) : (acceptCmd w s).errcode = s.errcode := rfl
@[simp] theorem acceptCmd_errcmd (w : Word) (s : State) : (acceptCmd w s).errcmd = s.errcmd := rfl
@[simp] theorem acceptCmd_errarg (w : Word) (s : State) : (acceptCmd w s).errarg = s.errarg := rfl
@[simp] theorem acceptCmd_cmd (w : Word) (s : State) : (acceptCmd w s).cmd = w := rfl
@[simp] theorem acceptCmd_arg0 (w : Word) (s : State) : (acceptCmd w s).arg0 = s.arg0 := rfl
@[simp] theorem acceptCmd_arg1 (w : Word) (s : State) : (acceptCmd w s).arg1 = s.arg1 := rfl
@[simp] theorem acceptCmd_arg2 (w : Word) (s : State) : (acceptCmd w s).arg2 = s.arg2 := rfl
@[simp] theorem acceptCmd_result0 (w : Word) (s : State) : (acceptCmd w s).result0 = s.result0 := rfl
@[simp] theorem acceptCmd_result1 (w : Word) (s : State) : (acceptCmd w s).result1 = s.result1 := rfl
@[simp] theorem acceptCmd_result2 (w : Word) (s : State) : (acceptCmd w s).result2 = s.result2 := rfl
@[simp] theorem acceptCmd_wordlen (w : Word) (s : State) : (acceptCmd w s).wordlen = s.wordlen := rfl
@[simp] theorem acceptCmd_mbhdr (w : Word) (s : State) : (acceptCmd w s).mbhdr = s.mbhdr := rfl
@[simp] theorem acceptCmd_nplanes (w : Word) (s : State) : (acceptCmd w s).nplanes = s.nplanes := rfl
@[simp] theorem acceptCmd_vpos (w : Word) (s : State) : (acceptCmd w s).vpos = s.vpos := rfl
@[simp] theorem acceptCmd_vlim (w : Word) (s : State) : (acceptCmd w s).vlim = s.vlim := rfl
@[simp] theorem acceptCmd_maxAbs (w : Word) (s : State) : (acceptCmd w s).maxAbs = s.maxAbs := rfl
@[simp] theorem acceptCmd_geomW (w : Word) (s : State) : (acceptCmd w s).geomW = s.geomW := rfl
@[simp] theorem acceptCmd_geomH (w : Word) (s : State) : (acceptCmd w s).geomH = s.geomH := rfl
@[simp] theorem acceptCmd_geomL (w : Word) (s : State) : (acceptCmd w s).geomL = s.geomL := rfl
@[simp] theorem acceptCmd_capBand (w : Word) (s : State) : (acceptCmd w s).capBand = s.capBand := rfl
@[simp] theorem acceptCmd_cb (w : Word) (s : State) : (acceptCmd w s).cb = s.cb := rfl
@[simp] theorem acceptCmd_mbv (w : Word) (s : State) : (acceptCmd w s).mbv = s.mbv := rfl
@[simp] theorem acceptCmd_sf (w : Word) (s : State) : (acceptCmd w s).sf = s.sf := rfl
@[simp] theorem acceptCmd_sigt (w : Word) (s : State) : (acceptCmd w s).sigt = s.sigt := rfl
@[simp] theorem acceptCmd_reft (w : Word) (s : State) : (acceptCmd w s).reft = s.reft := rfl
@[simp] theorem acceptCmd_sgnt (w : Word) (s : State) : (acceptCmd w s).sgnt = s.sgnt := rfl
@[simp] theorem acceptCmd_bands (w : Word) (s : State) : (acceptCmd w s).bands = s.bands := rfl
@[simp] theorem acceptCmd_used (w : Word) (s : State) : (acceptCmd w s).used = s.used := rfl
@[simp] theorem acceptCmd_pending (w : Word) (s : State) : (acceptCmd w s).pending = true := rfl
@[simp] theorem acceptCmd_hostQ (w : Word) (s : State) : (acceptCmd w s).hostQ = s.hostQ := rfl
@[simp] theorem acceptCmd_busData (w : Word) (s : State) : (acceptCmd w s).busData = s.busData := rfl
@[simp] theorem acceptCmd_freeCtr (w : Word) (s : State) : (acceptCmd w s).freeCtr = s.freeCtr := rfl

end Sys2Proof.Machine
end

