-- ==== Sys2Proof/Laws/Ops.lean ====
section
/-! SUPPORT. What the shared operations can do, said once: checks, commands, host turns, and the subband store. -/

namespace Sys2Proof.Machine

/-! ## Checks and commands (R224, R230) -/

@[simp] theorem firstFail_nil : firstFail [] = none := rfl

@[simp] theorem firstFail_cons (c : Check) (t : List Check) :
    firstFail (c :: t) = if c.ok then firstFail t else some c.err := rfl

/-- No check fails exactly when every check holds. -/
theorem firstFail_eq_none (cs : List Check) : firstFail cs = none ↔ ∀ c ∈ cs, c.ok = true := by
  induction cs with
  | nil => simp
  | cons c t ih => cases h : c.ok <;> simp [h, ih]

/-- The error of a failing list is the error of one of its checks that does not hold. -/
theorem firstFail_eq_some {cs : List Check} {e : Err} (h : firstFail cs = some e) :
    ∃ c ∈ cs, c.ok = false ∧ c.err = e := by
  induction cs with
  | nil => simp at h
  | cons c t ih =>
    cases hc : c.ok with
    | true =>
      obtain ⟨d, hd, hd'⟩ := ih (by simpa [hc] using h)
      exact ⟨d, by simp [hd], hd'⟩
    | false => exact ⟨c, by simp, hc, by simpa [hc] using h⟩

/-- Everything a command can do: complete its effect, or raise the first failing check's error. -/
theorem command_cases (cs : List Check) (f : State → State) (s : State) :
    (firstFail cs = none ∧ command cs f s = .next (complete (f s))) ∨
      ∃ e, firstFail cs = some e ∧ command cs f s = .next (raiseErr e s) := by
  unfold command
  cases h : firstFail cs with
  | none => exact .inl ⟨rfl, rfl⟩
  | some e => exact .inr ⟨e, rfl, rfl⟩

/-- A command whose checks hold completes with its effect. -/
theorem command_completes {cs : List Check} {s : State} (f : State → State) (h : ∀ c ∈ cs, c.ok = true) :
    command cs f s = .next (complete (f s)) := by
  unfold command
  rw [(firstFail_eq_none cs).2 h]

/-- A command with a failing check raises that check's error. -/
theorem command_raises {cs : List Check} {s : State} (f : State → State) {e : Err} (h : firstFail cs = some e) :
    command cs f s = .next (raiseErr e s) := by
  unfold command
  rw [h]

/-- A command always answers a next state. -/
theorem command_next (cs : List Check) (f : State → State) (s : State) : ∃ t, command cs f s = .next t := by
  rcases command_cases cs f s with ⟨_, h⟩ | ⟨e, _, h⟩
  · exact ⟨_, h⟩
  · exact ⟨_, h⟩

/-- R110: the shared checks of the SB commands hold exactly on a band of the pyramid. -/
theorem bandChecks_hold (s : State) (l : Nat) (o : Orient) :
    (∀ c ∈ bandChecks s l o, c.ok = true) ↔ s.geom = true ∧ l ≤ s.levels ∧ (l = 0 → o = .ll) := by
  simp only [bandChecks, checkGeom, List.forall_mem_cons, List.not_mem_nil, false_implies, implies_true, and_true,
    Bool.or_eq_true, decide_eq_true_eq, ne_eq]
  constructor
  · rintro ⟨h1, h2, h3⟩
    exact ⟨h1, h2, fun h => h3.resolve_left (by simp [h])⟩
  · rintro ⟨h1, h2, h3⟩
    refine ⟨h1, h2, ?_⟩
    by_cases h : l = 0
    · exact .inr (h3 h)
    · exact .inl h

/-! ## Whose turn it is (R43, R61) -/

/-- Everything a step can do: the engine's command, the outside's next event, or idling. -/
theorem step_cases (s : State) :
    (engineTurn s = true ∧ step s = engineStep s) ∨
      (engineTurn s = false ∧ s.hostQ = [] ∧ step s = .next s) ∨
      ∃ e rest, engineTurn s = false ∧ s.hostQ = e :: rest ∧ step s = busEvent e.op { s with hostQ := rest } := by
  unfold step
  cases h : engineTurn s with
  | true => exact .inl ⟨rfl, by simp⟩
  | false =>
    refine .inr ?_
    cases hq : s.hostQ with
    | nil => exact .inl ⟨rfl, rfl, by simp [hostTurn, hq]⟩
    | cons e rest => exact .inr ⟨e, rest, rfl, rfl, by simp [hostTurn, hq]⟩

/-- Everything a host read can do: deliver a value, drawing at most one free value, or a bus error. -/
theorem hostRead_cases (width : Nat) (addr : BitVec 20) (s : State) :
    hostRead width addr s = .fault .busError ∨
      ∃ v n, hostRead width addr s = .next { s with busData := v, freeCtr := s.freeCtr + n } := by
  unfold hostRead
  split
  · split <;> first
      | exact .inl rfl
      | (refine .inr ?_; unfold deliverFree; split
         · exact ⟨_, 0, rfl⟩
         · exact ⟨_, 1, rfl⟩)
      | exact .inr ⟨_, 0, rfl⟩
  · exact .inl rfl

/-- Everything a host write can do: a register write, a code-buffer write, nothing, or a bus error. -/
theorem hostWrite_cases (width : Nat) (addr : BitVec 20) (v : Word) (s : State) :
    hostWrite width addr v s = .fault .busError ∨ hostWrite width addr v s = .next s ∨
      (∃ r, hostWrite width addr v s = .next (writeReg v s r)) ∨
      ∃ i, hostWrite width addr v s = .next (writeIfIdle (fun t => { t with cb := t.cb.writeWords i [v] }) s) := by
  unfold hostWrite
  split
  · split
    · exact .inr (.inr (.inl ⟨_, rfl⟩))
    · exact .inr (.inl rfl)
    · exact .inl rfl
    · exact .inr (.inr (.inr ⟨_, rfl⟩))
    · exact .inl rfl
  · exact .inl rfl

/-- Everything a CTRL write can do: reset, or set the enables, which are taken unless a command is in progress. -/
theorem writeCtrl_cases (v : Word) (s : State) :
    (v.getLsbD 3 = true ∧ writeCtrl v s = resetEngine s) ∨
      (v.getLsbD 3 = false ∧ s.busy = true ∧ writeCtrl v s = setCtrl v s) ∨
      (v.getLsbD 3 = false ∧ s.busy = false ∧ writeCtrl v s = takeCtrl (setCtrl v s)) := by
  unfold writeCtrl
  cases v.getLsbD 3 <;> cases s.busy <;> simp

/-- Everything a CMD write can do: refusal or acceptance. -/
theorem writeCmd_cases (v : Word) (s : State) :
    ((s.busy = true ∨ s.err = true) ∧ writeCmd v s = hazard s) ∨
      (s.busy = false ∧ s.err = false ∧ writeCmd v s = acceptCmd v s) := by
  unfold writeCmd
  cases s.busy <;> cases s.err <;> simp

/-- The address of a register's offset names the register (R21). -/
@[simp] theorem targetAt_offsetOf (r : Reg) : targetAt (offsetOf r).toNat = .reg r := by cases r <;> rfl

/-- A register's offset is a legal address of a 32-bit access (R52). -/
@[simp] theorem accessLegal_offsetOf (r : Reg) : accessLegal 4 (offsetOf r).toNat = true := by cases r <;> rfl

/-- What `W <reg>, <value>` does (R80). -/
@[simp] theorem busEvent_regWrite (r : Reg) (v : Word) (s : State) :
    busEvent (regWrite r v) s = .next (writeReg v s r) := by
  simp [busEvent, regWrite, hostWrite]

/-- What `R <reg>` does (R80). -/
@[simp] theorem busEvent_regRead (r : Reg) (s : State) :
    busEvent (regRead r) s = .next (deliverFree (openBits s (busyUnspecified r)) (readReg s r) s) := by
  simp [busEvent, regRead, hostRead]

/-! ## The store (R112 to R114) -/

theorem findBand_append (bs cs : List (Nat × List Word)) (c : Nat) :
    findBand (bs ++ cs) c = (findBand bs c).or (findBand cs c) := by
  induction bs with
  | nil => rfl
  | cons b t ih =>
    obtain ⟨k, v⟩ := b
    by_cases h : k = c <;> simp [findBand, h, ih]

/-- A filter that depends on the cell alone keeps the bands of the cells it keeps. -/
theorem findBand_filter (p : Nat → Bool) (bs : List (Nat × List Word)) (c : Nat) :
    findBand (bs.filter fun b => p b.1) c = if p c then findBand bs c else none := by
  induction bs with
  | nil => simp [findBand]
  | cons b t ih =>
    obtain ⟨k, v⟩ := b
    by_cases hp : p k = true
    · by_cases hk : k = c
      · subst hk; simp [findBand, hp]
      · simp [findBand, hp, hk, ih]
    · by_cases hk : k = c
      · subst hk; simp [hp, ih]
      · simp [findBand, hp, hk, ih]

/-- The one law of storing a band: it reads back, every other band reads as before. -/
theorem findBand_putBand (bs : List (Nat × List Word)) (c x : Nat) (cs : List Word) :
    findBand (putBand bs c cs) x = if x = c then some cs else findBand bs x := by
  have hlow : findBand (bs.filter fun b => decide (b.1 < c)) x = if x < c then findBand bs x else none := by
    simpa using findBand_filter (fun k => decide (k < c)) bs x
  have hhigh : findBand (bs.filter fun b => decide (c < b.1)) x = if c < x then findBand bs x else none := by
    simpa using findBand_filter (fun k => decide (c < k)) bs x
  unfold putBand
  rw [findBand_append, hlow]
  simp only [findBand, hhigh]
  rcases lt_trichotomy x c with h | h | h
  · have h1 : ¬ c < x := by omega
    have h2 : ¬ c = x := by omega
    have h3 : ¬ x = c := by omega
    simp [h, h1, h2, h3]
  · subst h; simp
  · have h1 : ¬ x < c := by omega
    have h2 : ¬ c = x := by omega
    have h3 : ¬ x = c := by omega
    simp [h, h1, h2, h3]

/-- The one law of discarding a band. -/
theorem findBand_dropBand (bs : List (Nat × List Word)) (c x : Nat) :
    findBand (dropBand bs c) x = if x = c then none else findBand bs x := by
  have h : findBand (dropBand bs c) x = if decide (x ≠ c) = true then findBand bs x else none :=
    findBand_filter (fun k => decide (k ≠ c)) bs x
  rw [h]
  by_cases hx : x = c <;> simp [hx]

/-- Two bands with the same cell are the same band. -/
theorem bandCell_inj {l l' : Nat} {o o' : Orient} (h : bandCell l o = bandCell l' o') : l = l' ∧ o = o' := by
  cases o <;> cases o' <;> simp [bandCell, Orient.code] at h ⊢ <;> omega

theorem coefs_storeBand (l : Nat) (o : Orient) (cs : List Word) (s : State) (l' : Nat) (o' : Orient) :
    (storeBand l o cs s).coefs l' o' = if l' = l ∧ o' = o then cs else s.coefs l' o' := by
  simp only [State.coefs, storeBand_bands, findBand_putBand]
  by_cases h : bandCell l' o' = bandCell l o
  · have := bandCell_inj h; simp [this]
  · have : ¬ (l' = l ∧ o' = o) := by rintro ⟨rfl, rfl⟩; exact h rfl
    simp [h, this]

theorem alloc_storeBand (l : Nat) (o : Orient) (cs : List Word) (s : State) (l' : Nat) (o' : Orient) :
    (storeBand l o cs s).alloc l' o' = (decide (l' = l ∧ o' = o) || s.alloc l' o') := by
  simp only [State.alloc, storeBand_bands, findBand_putBand]
  by_cases h : bandCell l' o' = bandCell l o
  · have := bandCell_inj h; simp [this]
  · have : ¬ (l' = l ∧ o' = o) := by rintro ⟨rfl, rfl⟩; exact h rfl
    simp [h, this]

theorem coefs_freeBand (l : Nat) (o : Orient) (s : State) (l' : Nat) (o' : Orient) :
    (freeBand l o s).coefs l' o' = if l' = l ∧ o' = o then [] else s.coefs l' o' := by
  simp only [State.coefs, freeBand_bands, findBand_dropBand]
  by_cases h : bandCell l' o' = bandCell l o
  · have := bandCell_inj h; simp [this]
  · have : ¬ (l' = l ∧ o' = o) := by rintro ⟨rfl, rfl⟩; exact h rfl
    simp [h, this]

theorem alloc_freeBand (l : Nat) (o : Orient) (s : State) (l' : Nat) (o' : Orient) :
    (freeBand l o s).alloc l' o' = (!decide (l' = l ∧ o' = o) && s.alloc l' o') := by
  simp only [State.alloc, freeBand_bands, findBand_dropBand]
  by_cases h : bandCell l' o' = bandCell l o
  · have := bandCell_inj h; simp [this]
  · have : ¬ (l' = l ∧ o' = o) := by rintro ⟨rfl, rfl⟩; exact h rfl
    simp [h, this]

@[simp] theorem bw_storeBand (l : Nat) (o : Orient) (cs : List Word) (s : State) (l' : Nat) (o' : Orient) :
    (storeBand l o cs s).bw l' o' = s.bw l' o' := rfl

@[simp] theorem bh_storeBand (l : Nat) (o : Orient) (cs : List Word) (s : State) (l' : Nat) (o' : Orient) :
    (storeBand l o cs s).bh l' o' = s.bh l' o' := rfl

@[simp] theorem bandSize_storeBand (l : Nat) (o : Orient) (cs : List Word) (s : State) (l' : Nat) (o' : Orient) :
    (storeBand l o cs s).bandSize l' o' = s.bandSize l' o' := rfl

@[simp] theorem bandSize_freeBand (l : Nat) (o : Orient) (s : State) (l' : Nat) (o' : Orient) :
    (freeBand l o s).bandSize l' o' = s.bandSize l' o' := rfl

end Sys2Proof.Machine
end

