-- ==== Sys2Proof/Laws/PerInstr.lean ====
section
/-! SUPPORT. The per-command family OpcodeByte: the low byte of a command's word is its opcode (30_encoding.md R71, R74). -/

namespace Sys2Proof.Laws.OpcodeByte

/-- The OP field of a command's word is the command's opcode. -/
def Statement (i : Instr) : Prop := (fieldsOf (encode i)).op = i.opcode

/-- A word made of an opcode and higher fields has that opcode in its low byte. -/
theorem op_of_sum (a b : Nat) (ha : a < 256) : bitField (BitVec.ofNat 32 (a + b * 2 ^ 8)) 0 8 = a := by
  simp only [bitField, BitVec.toNat_ofNat]
  omega

/-- A command whose fields are `b` above the opcode has its opcode in the low byte. -/
theorem of_fieldBits (i : Instr) (b : Nat) (hb : i.fieldBits = b * 2 ^ 8) (ho : i.opcode < 256) : Statement i := by
  simp only [Statement, fieldsOf, encode, hb]
  exact op_of_sum _ _ ho

theorem nop : Statement .nop := rfl

theorem bsSetbit : Statement .bsSetbit := rfl

theorem bsClrbit : Statement .bsClrbit := rfl

theorem bsGetbit : Statement .bsGetbit := rfl

theorem bsSetval (k : Nat) : Statement (.bsSetval k) :=
  of_fieldBits _ (k * 2 ^ 9) (by simp only [Instr.fieldBits]; omega) (by simp only [Instr.opcode]; omega)

theorem bsGetval (k : Nat) : Statement (.bsGetval k) :=
  of_fieldBits _ (k * 2 ^ 9) (by simp only [Instr.fieldBits]; omega) (by simp only [Instr.opcode]; omega)

theorem bsCmpval (k : Nat) : Statement (.bsCmpval k) :=
  of_fieldBits _ (k * 2 ^ 9) (by simp only [Instr.fieldBits]; omega) (by simp only [Instr.opcode]; omega)

theorem bsSeek0 : Statement .bsSeek0 := rfl

theorem bsSeek1 : Statement .bsSeek1 := rfl

theorem bsAlign : Statement .bsAlign := rfl

theorem bsNwords : Statement .bsNwords := rfl

theorem sbAlloc (lvl : Nat) (o : Orient) : Statement (.sbAlloc lvl o) :=
  of_fieldBits _ (lvl + o.code * 2 ^ 5) (by simp only [Instr.fieldBits]; omega) (by simp only [Instr.opcode]; omega)

theorem sbFree (lvl : Nat) (o : Orient) : Statement (.sbFree lvl o) :=
  of_fieldBits _ (lvl + o.code * 2 ^ 5) (by simp only [Instr.fieldBits]; omega) (by simp only [Instr.opcode]; omega)

theorem sbWr (lvl : Nat) (o : Orient) : Statement (.sbWr lvl o) :=
  of_fieldBits _ (lvl + o.code * 2 ^ 5) (by simp only [Instr.fieldBits]; omega) (by simp only [Instr.opcode]; omega)

theorem sbRd (lvl : Nat) (o : Orient) : Statement (.sbRd lvl o) :=
  of_fieldBits _ (lvl + o.code * 2 ^ 5) (by simp only [Instr.fieldBits]; omega) (by simp only [Instr.opcode]; omega)

theorem sbQuant (lvl : Nat) (o : Orient) : Statement (.sbQuant lvl o) :=
  of_fieldBits _ (lvl + o.code * 2 ^ 5) (by simp only [Instr.fieldBits]; omega) (by simp only [Instr.opcode]; omega)

theorem sbDequant (lvl : Nat) (o : Orient) : Statement (.sbDequant lvl o) :=
  of_fieldBits _ (lvl + o.code * 2 ^ 5) (by simp only [Instr.fieldBits]; omega) (by simp only [Instr.opcode]; omega)

theorem sbExtract (lvl : Nat) (o : Orient) : Statement (.sbExtract lvl o) :=
  of_fieldBits _ (lvl + o.code * 2 ^ 5) (by simp only [Instr.fieldBits]; omega) (by simp only [Instr.opcode]; omega)

theorem sbPlace (lvl : Nat) (o : Orient) : Statement (.sbPlace lvl o) :=
  of_fieldBits _ (lvl + o.code * 2 ^ 5) (by simp only [Instr.fieldBits]; omega) (by simp only [Instr.opcode]; omega)

theorem sbInfo (lvl : Nat) (o : Orient) : Statement (.sbInfo lvl o) :=
  of_fieldBits _ (lvl + o.code * 2 ^ 5) (by simp only [Instr.fieldBits]; omega) (by simp only [Instr.opcode]; omega)

theorem wtInit : Statement .wtInit := rfl

theorem wtFwd (lvl : Nat) : Statement (.wtFwd lvl) :=
  of_fieldBits _ (lvl) rfl (by simp only [Instr.opcode]; omega)

theorem wtInv (lvl : Nat) : Statement (.wtInv lvl) :=
  of_fieldBits _ (lvl) rfl (by simp only [Instr.opcode]; omega)

theorem mbClear : Statement .mbClear := rfl

theorem mbPut : Statement .mbPut := rfl

theorem mbGet : Statement .mbGet := rfl

theorem mbEncode (pad tileEnd : Bool) : Statement (.mbEncode pad tileEnd) :=
  of_fieldBits _ (pad.toNat * 2 ^ 7 + tileEnd.toNat * 2 ^ 8) (by simp only [Instr.fieldBits]; omega) (by simp only [Instr.opcode]; omega)

theorem mbDecode : Statement .mbDecode := rfl

end Sys2Proof.Laws.OpcodeByte
end

