-- ==== Sys2Proof/Tests/Slice0.lean ====
section
/-! SUPPORT. The model's own tests: the checks of well-formedness, the decoding of words written out from 30_encoding.md R71
and R74, single steps with the values of spec/95_test_vectors.md (its vector names stand in the docstrings), and for every
statement with hypotheses a concrete state and operands that meet them. -/

namespace Sys2Proof.Machine

/-! ## Helpers -/

/-- The state after an outcome, if there is one. -/
def nextOf (o : Host.Outcome State Fault Refusal) : Option State :=
  match o with
  | .next t => some t
  | .fault _ => none
  | .refused _ => none

/-- One field of the state after the command word `w`, accepted in `s`, has run. -/
def after {α : Type} (s : State) (w : Word) (field : State → α) : Option α :=
  (nextOf (step (acceptWord w s))).map field

/-- The reset state with operands. -/
def withArgs (a0 a1 a2 : Word) : State := { State.reset with arg0 := a0, arg1 := a1, arg2 := a2 }

/-- A reset state whose code buffer starts with the given words. -/
def withCode (ws : List Word) (s : State) : State := { s with cb := Memory.writeWords [] 0 ws }

/-- The 3 x 2 image of 42_wavelet.md R150's example, with one level; nothing else allocated. -/
def image32 : State :=
  { State.reset with
    geom := true, geomW := 3#32, geomH := 2#32, geomL := 1#5
    bands := [(0, [1#32, 2#32, 3#32, 4#32, 5#32, 6#32])], used := 6 }

/-- The four bands of R150's example, level 0 free. -/
def level32 : State :=
  { image32 with bands := [(4, [1#32, 3#32]), (5, [2#32]), (6, [4#32, 6#32]), (7, [5#32])] }

/-- A 4 x 4 image with one level, its 2 x 2 band (1, HL) allocated. -/
def bandHL (cs : List Word) : State :=
  { State.reset with geom := true, geomW := 4#32, geomH := 4#32, geomL := 1#5, bands := [(5, cs)], used := 4 }

/-- The macroblock [5, -3, 0, 2] being filled. -/
def filled : State := { State.reset with mbv := Memory.writeWords [] 0 [5#32, (-3#32), 0#32, 2#32], vpos := 4, maxAbs := 5 }

/-- The payload of R193's example, loaded for MB_DECODE. -/
def loaded (wordlen mbhdr : BitVec 16) : State :=
  withCode [0x3C200263#32, 0x0A710019#32, 0#32, 0x0013000B#32, 3#32] { State.reset with wordlen := wordlen, mbhdr := mbhdr }

/-- A reset state with a pending command and BUSY = 1. -/
def pendingWord (w : Word) : State := acceptWord w State.reset

/-- The payload of R193's example as one bit string. -/
def examplePayload : BitString := 0x3C200263 + 0x0A710019 * 2 ^ 32 + 0x0013000B * 2 ^ 96 + 3 * 2 ^ 128

/-- The values of R193's example. -/
def exampleValues : List Word := [5#32, 0xFFFFFFFD#32, 0#32, 2#32]

theorem exampleValues_magnitudes : ∀ v ∈ exampleValues, absCoef v ≤ 5 := by
  intro v hv
  simp only [exampleValues, List.mem_cons, List.not_mem_nil, or_false] at hv
  rcases hv with rfl | rfl | rfl | rfl <;> decide

/-! ## Well-formedness: each check refuses an ill-formed term -/

theorem test_countFits_refuses_bsSetval : (Instr.bsSetval 64).wellFormed = false := by decide

theorem test_countFits_refuses_bsGetval : (Instr.bsGetval 64).wellFormed = false := by decide

theorem test_countFits_refuses_bsCmpval : (Instr.bsCmpval 64).wellFormed = false := by decide

theorem test_levelFits_refuses_sbAlloc : (Instr.sbAlloc 32 .ll).wellFormed = false := by decide

theorem test_levelFits_refuses_sbFree : (Instr.sbFree 32 .ll).wellFormed = false := by decide

theorem test_levelFits_refuses_sbWr : (Instr.sbWr 32 .ll).wellFormed = false := by decide

theorem test_levelFits_refuses_sbRd : (Instr.sbRd 32 .ll).wellFormed = false := by decide

theorem test_levelFits_refuses_sbQuant : (Instr.sbQuant 32 .ll).wellFormed = false := by decide

theorem test_levelFits_refuses_sbDequant : (Instr.sbDequant 32 .ll).wellFormed = false := by decide

theorem test_levelFits_refuses_sbExtract : (Instr.sbExtract 32 .ll).wellFormed = false := by decide

theorem test_levelFits_refuses_sbPlace : (Instr.sbPlace 32 .ll).wellFormed = false := by decide

theorem test_levelFits_refuses_sbInfo : (Instr.sbInfo 32 .ll).wellFormed = false := by decide

theorem test_levelFits_refuses_wtFwd : (Instr.wtFwd 32).wellFormed = false := by decide

theorem test_levelFits_refuses_wtInv : (Instr.wtInv 32).wellFormed = false := by decide

theorem test_widest_fields_fit : (Instr.bsSetval 63).wellFormed = true ∧ (Instr.wtFwd 31).wellFormed = true := by decide

/-! ## Decoding of words written out from R71 and R74 (and R84) -/

theorem test_decode_nop : decode 0x00000000#32 = .ok (.nop) := rfl

theorem test_decode_bsSetbit : decode 0x00000001#32 = .ok (.bsSetbit) := rfl

theorem test_decode_bsClrbit : decode 0x00000002#32 = .ok (.bsClrbit) := rfl

theorem test_decode_bsGetbit : decode 0x00000003#32 = .ok (.bsGetbit) := rfl

theorem test_decode_bsSetval : decode 0x001E0004#32 = .ok (.bsSetval 15) := rfl

theorem test_decode_bsGetval : decode 0x00400005#32 = .ok (.bsGetval 32) := rfl

theorem test_decode_bsCmpval : decode 0x007E0006#32 = .ok (.bsCmpval 63) := rfl

theorem test_decode_bsSeek0 : decode 0x00000007#32 = .ok (.bsSeek0) := rfl

theorem test_decode_bsSeek1 : decode 0x00000008#32 = .ok (.bsSeek1) := rfl

theorem test_decode_bsAlign : decode 0x00000009#32 = .ok (.bsAlign) := rfl

theorem test_decode_bsNwords : decode 0x0000000A#32 = .ok (.bsNwords) := rfl

theorem test_decode_sbAlloc : decode 0x00006111#32 = .ok (.sbAlloc 1 .hh) := rfl

theorem test_decode_sbFree : decode 0x00001F12#32 = .ok (.sbFree 31 .ll) := rfl

theorem test_decode_sbWr : decode 0x00000313#32 = .ok (.sbWr 3 .ll) := rfl

theorem test_decode_sbRd : decode 0x00004214#32 = .ok (.sbRd 2 .lh) := rfl

theorem test_decode_sbQuant : decode 0x00002115#32 = .ok (.sbQuant 1 .hl) := rfl

theorem test_decode_sbDequant : decode 0x00002116#32 = .ok (.sbDequant 1 .hl) := rfl

theorem test_decode_sbExtract : decode 0x00006317#32 = .ok (.sbExtract 3 .hh) := rfl

theorem test_decode_sbPlace : decode 0x00002118#32 = .ok (.sbPlace 1 .hl) := rfl

theorem test_decode_sbInfo : decode 0x00000419#32 = .ok (.sbInfo 4 .ll) := rfl

theorem test_decode_wtInit : decode 0x00000020#32 = .ok (.wtInit) := rfl

theorem test_decode_wtFwd : decode 0x00000121#32 = .ok (.wtFwd 1) := rfl

theorem test_decode_wtInv : decode 0x00000222#32 = .ok (.wtInv 2) := rfl

theorem test_decode_mbClear : decode 0x00000030#32 = .ok (.mbClear) := rfl

theorem test_decode_mbPut : decode 0x00000031#32 = .ok (.mbPut) := rfl

theorem test_decode_mbGet : decode 0x00000032#32 = .ok (.mbGet) := rfl

theorem test_decode_mbEncode : decode 0x00018033#32 = .ok (.mbEncode true true) := rfl

theorem test_decode_mbEncode_pad : decode 0x00008033#32 = .ok (.mbEncode true false) := rfl

theorem test_decode_mbEncode_tileEnd : decode 0x00010033#32 = .ok (.mbEncode false true) := rfl

theorem test_decode_mbDecode : decode 0x00000034#32 = .ok (.mbDecode) := rfl

theorem test_decode_refuses_unassigned_opcode : decode 0x0000000B#32 = .error .unassignedOpcode := rfl

theorem test_decode_refuses_unassigned_opcode_high : decode 0x000000FF#32 = .error .unassignedOpcode := rfl

theorem test_decode_refuses_reserved_bit : decode 0x00800000#32 = .error .reservedBits := rfl

theorem test_decode_refuses_unused_orientation : decode 0x00002121#32 = .error .unusedField := rfl

theorem test_decode_refuses_unused_level : decode 0x00000101#32 = .error .unusedField := rfl

theorem test_decode_refuses_unused_count : decode 0x00020011#32 = .error .unusedField := rfl

theorem test_decode_refuses_unused_flag : decode 0x00010007#32 = .error .unusedField := rfl

/-! ## Single steps -/

/-- V-C3. -/
theorem test_nop_status : after State.reset 0#32 State.statusWord = some 0x22#32 := by decide

/-- V-C4. -/
theorem test_illegal_word : after State.reset 0x0000000B#32 (fun t => (t.statusWord, t.errcode, t.errcmd, t.errarg)) =
    some (0x26#32, 0x10#8, 0x0000000B#32, 0#32) := by decide

/-- V-C10. -/
theorem test_irq_after_nop : after { State.reset with ieDone := true, ieErr := true } 0#32 State.statusWord = some 0xA2#32 := by decide

/-- V-B1. -/
theorem test_setbit : after (withArgs 33#32 0#32 0#32) 1#32 (fun t => t.cb.readWord 1) = some 2#32 := by decide

/-- V-B5. -/
theorem test_setbit_last : after (withArgs 0xFFFFF#32 0#32 0#32) 1#32 (fun t => t.cb.readWord 32767) = some 0x80000000#32 := by decide

/-- V-B2. -/
theorem test_clrbit : after (withCode [0xFFFFFFFF#32] (withArgs 31#32 0#32 0#32)) 2#32 (fun t => t.cb.readWord 0) = some 0x7FFFFFFF#32 := by decide

/-- V-B3. -/
theorem test_getbit : after (withCode [0#32, 2#32] (withArgs 33#32 0#32 0#32)) 3#32 (fun t => t.result0) = some 1#32 := by decide

/-- V-B4. -/
theorem test_getbit_no_wrap : after (withArgs 0xFFFFFFFF#32 0#32 0#32) 3#32 (fun t => (t.errcode, t.errarg)) = some (0x11#8, 0xFFFFFFFF#32) := by decide

/-- V-B6. -/
theorem test_setval_straddles : after (withArgs 30#32 0x1F#32 0#32) 0x000A0004#32 (fun t => (t.cb.readWord 0, t.cb.readWord 1)) =
    some (0xC0000000#32, 7#32) := by decide

/-- V-B10. -/
theorem test_setval_k_zero : after (withArgs 0#32 1#32 0#32) 4#32 (fun t => (t.errcode, t.errarg)) = some (0x11#8, 0#32) := by decide

/-- V-B7. -/
theorem test_getval_straddles : after (withCode [0xC0000000#32, 7#32] (withArgs 30#32 0#32 0#32)) 0x000A0005#32 (fun t => t.result0) = some 0x1F#32 := by decide

/-- V-B13. -/
theorem test_cmpval_differs : after (withCode [0xABC#32] (withArgs 4#32 0xAC#32 0#32)) 0x00100006#32 (fun t => t.result0) = some 0#32 := by decide

/-- V-B14. -/
theorem test_cmpval_reduces : after (withArgs 0#32 0x100#32 0#32) 0x00100006#32 (fun t => t.result0) = some 1#32 := by decide

/-- V-B15. -/
theorem test_seek0 : after (withCode [0x100#32] (withArgs 0#32 32#32 0#32)) 7#32 (fun t => t.result0) = some 8#32 := by decide

/-- V-B16. -/
theorem test_seek1_crosses : after (withCode [0xF0000000#32, 3#32] (withArgs 28#32 100#32 0#32)) 8#32 (fun t => t.result0) = some 6#32 := by decide

/-- V-B19. -/
theorem test_align_wraps : after (withArgs 0xFFFFFFE1#32 0#32 0#32) 9#32 (fun t => t.result0) = some 0#32 := by decide

/-- V-B19. -/
theorem test_align : after (withArgs 37#32 0#32 0#32) 9#32 (fun t => t.result0) = some 64#32 := by decide

/-- V-B20. -/
theorem test_nwords : after (withArgs 0xFFFFFFE0#32 0#32 0#32) 10#32 (fun t => t.result0) = some 0x07FFFFFF#32 := by decide

/-- V-S1. -/
theorem test_sbAlloc : after { State.reset with geom := true, geomW := 8#32, geomH := 8#32, geomL := 1#5 } 0x00006111#32 State.used = some 16 := by decide

/-- V-S1, on a 2 x 2 band. -/
theorem test_sbFree : after { (bandHL [1#32, 2#32, 3#32, 4#32]) with geom := true } 0x00002112#32 (fun t => (t.used, t.bands)) = some (0, []) := by decide

/-- R117. -/
theorem test_sbWr : after { image32 with arg0 := 5#32, arg1 := 0xFFFFFFFF#32 } 0x00000013#32 (fun t => t.coefs 0 .ll) =
    some [1#32, 2#32, 3#32, 4#32, 5#32, 0xFFFFFFFF#32] := by decide

/-- V-S2: the index check comes first. -/
theorem test_sbRd_index_before_allocation : after { image32 with arg0 := 25#32 } 0x00006114#32 (fun t => (t.errcode, t.errarg)) = some (0x11#8, 25#32) := by decide

/-- R118. -/
theorem test_sbRd : after { image32 with arg0 := 5#32 } 0x00000014#32 (fun t => t.result0) = some 6#32 := by decide

/-- V-S5: (3, HH) is 32 x 16. -/
theorem test_sbInfo : after { State.reset with geom := true, geomW := 257#32, geomH := 131#32, geomL := 3#5 } 0x00006319#32
    (fun t => (t.result0, t.result1, t.result2)) = some (32#32, 16#32, 0#32) := by decide

/-- V-S3. -/
theorem test_sbInfo_level_zero : after { State.reset with geom := true, geomW := 257#32, geomH := 131#32, geomL := 3#5 } 0x00002019#32
    (fun t => (t.errcode, t.errarg)) = some (0x11#8, 0#32) := by decide

/-- V-Q3, on four of its values. -/
theorem test_sbQuant : after { (bandHL [6#32, 5#32, (-6#32), 13#32]) with arg0 := 3#32 } 0x00002115#32 (fun t => t.coefs 1 .hl) =
    some [2#32, 0#32, (-2#32), 3#32] := by decide

/-- V-Q4, on four of its values. -/
theorem test_sbDequant : after { (bandHL [2#32, 0#32, (-2#32), 3#32]) with arg0 := 3#32 } 0x00002116#32 (fun t => t.coefs 1 .hl) =
    some [8#32, 0#32, (-8#32), 12#32] := by decide

/-- V-Q1, V-Q2, V-Q7. -/
theorem test_quant_corners : quantCoef .ll 1 0x80000000#32 = 0xC0000000#32 ∧ quantCoef .ll 2 (-6#32) = (-2#32) ∧ deadZone 31 = 3006477107 ∧
    dequantCoef 2 0x40000000#32 = 0#32 := by decide

/-- V-S4. -/
theorem test_scan : [0, 8, 63, 64, 65, 66, 79, 80, 87, 88, 89].map (fun t => (scan 10 9).getD t 0) =
    [0, 10, 77, 8, 9, 18, 79, 80, 87, 88, 89] := by decide

/-- V-S7. -/
theorem test_sbExtract : after (bandHL [1#32, (-2#32), 3#32, 0#32]) 0x00002117#32
    (fun t => (t.mbv.readWords 0 4, t.mbposWord, t.maxAbs, t.result0, t.result1)) =
    some ([1#32, (-2#32), 3#32, 0#32], 4#32, 3, 4#32, 4#32) := by decide

/-- V-S8. -/
theorem test_sbPlace : after { (bandHL [9#32, 9#32, 9#32, 9#32]) with
      arg1 := 2#32, mbv := Memory.writeWords [] 0 [1#32, (-2#32), 3#32, 0#32], vlim := 4 } 0x00002118#32
    (fun t => (t.coefs 1 .hl, t.mbposWord, t.result0)) = some ([2#32, (-4#32), 6#32, 0#32], 0x00040004#32, 4#32) := by decide

/-- V-S10. -/
theorem test_sbPlace_empty : after (bandHL [0#32, 0#32, 0#32, 0#32]) 0x00002118#32 (fun t => (t.errcode, t.errarg)) = some (0x15#8, 0#32) := by decide

/-- R141. -/
theorem test_wtInit : after (withArgs 257#32 131#32 3#32) 0x20#32 (fun t => (t.geom, t.bw 2 .ll, t.bh 2 .ll)) = some (true, 65, 33) := by decide

/-- V-W10. -/
theorem test_wtInit_too_large : after (withArgs 70000#32 70000#32 1#32) 0x20#32 (fun t => (t.errcode, t.errarg, t.geom)) = some (0x11#8, 70000#32, false) := by decide

/-- V-W1. -/
theorem test_f1d : f1d [100#32, (-100#32), 100#32, (-100#32), 100#32, (-100#32)] = [0#32, (-200#32), 0#32, (-200#32), 0#32, (-200#32)] ∧
    f1d [10#32, 20#32, 30#32, 40#32, 50#32, 60#32] = [10#32, 0#32, 30#32, 0#32, 53#32, 10#32] := by decide

/-- V-W2. -/
theorem test_f1d_wraps : f1d [0x80000000#32, 0x7FFFFFFF#32, 0x80000000#32, 0x7FFFFFFF#32, 0x80000000#32] =
    [0x80000000#32, (-1#32), 0x80000000#32, (-1#32), 0x80000000#32] := by decide

/-- V-W8. -/
theorem test_wtFwd : after image32 0x21#32 (fun t => (t.bands, t.used)) =
    some ([(4, [1#32, 3#32]), (5, [2#32]), (6, [4#32, 6#32]), (7, [5#32])], 6) := by decide

/-- V-W7. -/
theorem test_wtFwd_quantizes : after { State.reset with
      geom := true, geomW := 5#32, geomH := 5#32, geomL := 1#5, arg0 := 3#32, used := 25
      bands := [(0, (List.range 25).map fun i => BitVec.ofNat 32 (i * i))] } 0x21#32
    (fun t => (t.coefs 1 .ll, t.coefs 1 .lh, t.coefs 1 .hl)) =
    some ([(-6#32), (-4#32), 2#32, 44#32, 66#32, 92#32, 194#32, 236#32, 282#32], List.replicate 6 (-6#32), List.replicate 6 0#32) := by decide

/-- V-W8. -/
theorem test_wtInv : after level32 0x122#32 (fun t => (t.bands, t.used)) =
    some ([(0, [1#32, 2#32, 3#32, 4#32, 5#32, 6#32])], 6) := by decide

/-- R166. -/
theorem test_mbClear : after filled 0x30#32 (fun t => (t.mbposWord, t.maxAbs, t.mbv.readWord 1)) = some (0#32, 0, (-3#32)) := by decide

/-- R167. -/
theorem test_mbPut : after { filled with arg0 := 0x80000000#32, vlim := 9 } 0x31#32 (fun t => (t.mbv.readWord 4, t.vpos, t.vlim, t.maxAbs)) =
    some (0x80000000#32, 5, 0, 2147483648) := by decide

/-- V-E13. -/
theorem test_mbPut_overflow : after { State.reset with vpos := 16384 } 0x31#32 (fun t => (t.errcode, t.errarg)) = some (0x14#8, 16384#32) := by decide

/-- V-D12. -/
theorem test_mbGet : after { filled with vpos := 1, vlim := 4 } 0x32#32 (fun t => (t.result0, t.vpos)) = some (0xFFFFFFFD#32, 2) := by decide

/-- V-D12. -/
theorem test_mbGet_underflow : after { filled with vpos := 4, vlim := 4 } 0x32#32 (fun t => (t.errcode, t.errarg)) = some (0x15#8, 4#32) := by decide

/-- V-E1. -/
theorem test_mbEncode : after filled 0x33#32 (fun t => (t.cb.readWords 0 5, t.wordlen, t.mbhdr, t.nplanes, t.result2)) =
    some ([0x3C200263#32, 0x0A710019#32, 0#32, 0x0013000B#32, 3#32], 5#16, 4#16, 3#5, 4#32) := by decide

/-- V-E12. -/
theorem test_mbEncode_empty : after State.reset 0x8033#32 (fun t => (t.errcode, t.errarg)) = some (0x11#8, 0#32) := by decide

/-- V-D1, V-D2. -/
theorem test_mbDecode : after (loaded 5#16 0x8004#16) 0x34#32 (fun t => (t.mbv.readWords 0 4, t.nplanes, t.result0, t.mbposWord)) =
    some ([5#32, (-3#32), 0#32, 2#32], 3#5, 4#32, 0x00040000#32) := by decide

/-- V-D7. -/
theorem test_mbDecode_overshoot : after (loaded 5#16 6#16) 0x34#32 (fun t => (t.errcode, t.errarg)) = some (0x03#8, 30#32) := by decide

/-- R23: the write takes effect for the next command. -/
theorem test_pendingCtrlWrite_keeps_favor : (nextOf (hostWrite 4 0x004#20 4#32 (pendingWord 0x33#32))).map (fun t => (t.favorSpeed, t.favorTaken)) =
    some (true, false) := by decide

/-- R233: irq follows CTRL, written while BUSY = 1: it rises at this command's completion. -/
theorem test_pendingCtrlWrite_irq_follows_ctrl : let s := (nextOf (hostWrite 4 0x004#20 1#32 (pendingWord 0#32))).getD State.reset
    (nextOf (engineStep s)).map (fun t => (t.ctrlWord, t.done, t.irq)) = some (1#32, true, true) := by decide

/-- R233: clearing the enable while BUSY = 1 drops irq at once, and R23: the command in progress keeps the one it took. -/
theorem test_pendingCtrlWrite_drops_irq : let s := acceptWord 0#32 { State.reset with done := true, ieDone := true }
    s.irq = true ∧ (nextOf (hostWrite 4 0x004#20 0#32 s)).map (fun t => (t.irq, t.ieDoneTaken)) = some (false, true) := by decide

/-- R81: ACK after an error. -/
theorem test_ack : (nextOf (busEvent ack { State.reset with done := true, err := true, haz := true, errcode := 0x15#8 })).map
    (fun t => (t.statusWord, t.errcode)) = some (0x20#32, 0#8) := by decide

/-- R81: RUN with one argument writes ARG0, issues the command, and waits. -/
theorem test_runEvents : runEvents .mbPut [5#32] 1 =
    [⟨false, .write 4 0x01C#20 5#32⟩, ⟨false, .write 4 0x018#20 0x31#32⟩, ⟨true, .read 4 0x008#20⟩, ⟨false, .read 4 0x008#20⟩] := by
  decide

/-- R193: the example's words carry the fields that the layout of R86 gives. -/
theorem test_layout_of_example : carries examplePayload (payloadLayout (chosenForm false exampleValues) 3 exampleValues) ∧
    (payloadLayout (chosenForm false exampleValues) 3 exampleValues).fin = 160 := by unfold carries; decide

/-- V-C11. -/
theorem test_softReset : (nextOf (hostWrite 4 0x004#20 0xF#32 { (pendingWord 0x33#32) with ieDone := true, haz := true })).map State.statusWord =
    some 0x20#32 := by decide

/-- The interface runs the word as the first command after reset. -/
theorem test_withFetchWord_runs : (nextOf (step (State.reset.withFetchWord 32 0x33))).map (fun t => t.errcode) = some 0x11#8 := by decide

/-! ## Witnesses: for every statement with hypotheses, a state and operands that meet them -/

theorem witness_StepRunsDecodedCommand : (pendingWord 0x21#32).pending = true ∧ (pendingWord 0x21#32).hostQ = [] ∧ decodeTableWord 32 0x21 = some (.wtFwd 0) ∧
    decode (pendingWord 0x21#32).cmd = .ok (.wtFwd 0) := ⟨rfl, rfl, rfl, rfl⟩

theorem witness_StepRunsDecodedCommand_late_event : let s := { (pendingWord 0x21#32) with hostQ := [⟨false, .read 4 0x008#20⟩] }
    s.pending = true ∧ ∀ e rest, s.hostQ = e :: rest → e.early = false := by
  refine ⟨rfl, ?_⟩
  rintro e rest h
  cases h
  rfl

/-- A queued CB window write is made, and taken off the queue. -/
theorem witness_StepRunsDecodedCommand_host_turn : let s := { State.reset with hostQ := [⟨false, .write 4 0x40004#20 7#32⟩] }
    s.pending = false ∧ (nextOf (step s)).map (fun t => (t.cb.readWord 1, t.hostQ)) = some (7#32, []) := by decide

theorem witness_StepRunsDecodedCommand_early_event : let s := { (pendingWord 0#32) with hostQ := [⟨true, .write 4 0x40004#20 7#32⟩] }
    s.pending = true ∧ (nextOf (step s)).map (fun t => (t.pending, t.haz, t.cb)) = some (true, true, []) := by decide

theorem witness_StepRunsDecodedCommand_idle : State.reset.pending = false ∧ State.reset.hostQ = [] := by decide

theorem witness_DecodeRule_row : (0xFFFFE0FF#32, 0x00000021#32) ∈ legalPatterns ∧ 0x00001F21#32 &&& 0xFFFFE0FF#32 = 0x00000021#32 := ⟨by simp [legalPatterns], by decide⟩

theorem witness_DecodeRule_no_row : ∀ r ∈ legalPatterns, 0x00002121#32 &&& r.1 ≠ r.2 := by simp [legalPatterns]

theorem witness_DecodeEncode : (Instr.sbPlace 31 .hh).WellFormed ∧ (Instr.bsCmpval 63).WellFormed := by decide

theorem witness_EncodeDecode : decode 0x007E0006#32 = .ok (.bsCmpval 63) := rfl

theorem witness_ControlSoundKept : (pendingWord 0x33#32).controlSound = true ∧ (nextOf (step (pendingWord 0x33#32))).isSome = true := by decide

theorem witness_MemoriesSoundKept : (loaded 5#16 4#16).memoriesSound = true ∧ (nextOf (step (acceptWord 0x34#32 (loaded 5#16 4#16)))).isSome = true := by decide

theorem witness_MacroblockSoundKept : filled.macroblockSound = true ∧ (nextOf (step (acceptWord 0x33#32 filled))).isSome = true := by decide

theorem witness_StoreSoundKept : (acceptWord 0x21#32 image32).storeSound = true ∧ (nextOf (step (acceptWord 0x21#32 image32))).isSome = true := by decide

theorem witness_SoftReset : (0xF#32).getLsbD 3 = true ∧ (nextOf (hostWrite 4 0x004#20 0xF#32 filled)).isSome = true ∧ (nextOf (engineStep filled)).isSome = true := by decide

theorem witness_CapacityConstants : (nextOf (step (pendingWord 0#32))).isSome = true := by decide

theorem witness_CommandsComplete_run : let s := { State.reset with hostQ := runEvents .bsGetbit [1#32, 2#32, 3#32] 2 }
    s.busy = false ∧ s.err = false ∧ s.pending = false ∧ [1#32, 2#32, 3#32].length ≤ 3 := by decide

theorem witness_CommandsComplete_wait : let s := { (pendingWord 0#32) with hostQ := waitEvents 0 ++ [HostEvent.mk false ack] }
    s.pending = true ∧ s.hostQ = waitEvents 0 ++ [HostEvent.mk false ack] := by decide

theorem witness_PreciseErrors : (pendingWord 0x0B#32).err = false ∧
    (nextOf (engineStep (pendingWord 0x0B#32))).map (fun t => t.err) = some true := by decide

theorem witness_PreciseErrors_stream : let s := acceptWord 0x34#32 (loaded 2#16 4#16)
    s.err = false ∧ (nextOf (engineStep s)).map (fun t => (t.err, t.errcode)) = some (true, 0x02#8) := by decide

theorem witness_ErrorRecording : let s := pendingWord 0x31#32
    decode s.cmd = .ok .mbPut ∧ s.err = false ∧
    (nextOf (engineStep { s with vpos := 16384 })).map (fun t => (t.err, t.errcode, t.errcmd)) = some (true, 0x14#8, 0x31#32) :=
  ⟨rfl, by decide, by decide⟩

theorem witness_FaultsAreBusErrors : let s := { State.reset with hostQ := [⟨false, .write 4 0x20000#20 0#32⟩] }
    engineTurn s = false ∧ eventLegal (.write 4 0x20000#20 0#32) = false ∧ step s = .fault .busError := ⟨by decide, by decide, rfl⟩

theorem witness_LegalHostRunsSafely : { State.reset with hostQ := [⟨false, .write 4 0x018#20 0x33#32⟩, ⟨true, .read 4 0x5FFFC#20⟩, ⟨false, .reset⟩] }.hostLegal = true := by decide

theorem witness_CmdWrite_accepted : State.reset.busy = false ∧ State.reset.err = false := by decide

theorem witness_CmdWrite_refused : ((pendingWord 0#32).busy = true ∨ (pendingWord 0#32).err = true) ∧
    ({ State.reset with err := true }.busy = true ∨ { State.reset with err := true }.err = true) := by decide

theorem witness_ErrorsSticky : let s := { State.reset with err := true, errcode := 0x11#8, hostQ := [⟨false, .write 4 0x018#20 0#32⟩] }
    s.err = true ∧ s.pending = false ∧ (nextOf (step s)).map (fun t => (t.err, t.haz, t.errcode)) = some (true, true, 0x11#8) := by decide

theorem witness_ErrorsSticky_acknowledged : { State.reset with err := true }.err = true ∧ (0xE#32).getLsbD 2 = true := by decide

theorem witness_BusyRefusals : (pendingWord 0#32).busy = true ∧ 0x018#20 ∈ [0x018#20, 0x038#20] ∧ 32767 < 32768 := by decide

theorem witness_RegisterWrites_idle : { State.reset with err := true }.busy = false := by decide

theorem witness_RegisterWrites_hole : 0x064 ≤ (0x064#20).toNat ∧ (0xFFC#20).toNat ≤ 0xFFC ∧ (0xFFC#20).toNat % 4 = 0 := by decide

theorem witness_CtrlWrite_idle : (7#32).getLsbD 3 = false ∧ State.reset.busy = false ∧ State.reset.err = false := by decide

theorem witness_CtrlWrite_busy : (7#32).getLsbD 3 = false ∧ (pendingWord 0#32).busy = true ∧
    (nextOf (engineStep (pendingWord 0#32))).isSome = true := by decide

theorem witness_ReadsChangeNothing : State.reset.busy = false ∧ (nextOf (hostRead 4 0x000#20 State.reset)).isSome = true := by decide

theorem witness_StatusRead : State.reset.busy = false := by decide

theorem witness_RegisterReads : filled.busy = false := by decide

theorem witness_WindowAccess : State.reset.busy = false ∧ 32767 < 32768 ∧ 16383 < 16384 ∧ (0x5FFFC#20).toNat = 0x40000 + 4 * 32767 := by decide

/-- R54, R55: the last bit of the last word, in the last byte lane. -/
theorem witness_WindowAccess_views : let s := { State.reset with cb := Memory.writeWords [] 32767 [0x80000000#32] }
    3 < 4 ∧ 31 < 32 ∧ s.memoriesSound = true ∧ s.cb.getBit (32 * 32767 + 31) = true ∧ s.cb.read (4 * 32767 + 3) = 0x80#8 := by
  decide

theorem witness_BusErrors_width : (2 : Nat) ≠ 4 ∧ (0x001#20).toNat % 4 ≠ 0 := by decide

theorem witness_BusErrors_unmapped : (0x01000 ≤ (0x01000#20).toNat ∧ (0x01000#20).toNat < 0x20000) ∧
    (0x30000 ≤ (0x30000#20).toNat ∧ (0x30000#20).toNat < 0x40000) ∧ 0x60000 ≤ (0x60000#20).toNat := by decide

theorem witness_BsPutBitResult_writes : (withArgs 0xFFFFF#32 0#32 0#32).arg0.toNat + 1 ≤ 1048576 := by decide

theorem witness_BsPutBitResult_refused : 1048576 < (withArgs 0x100000#32 0#32 0#32).arg0.toNat + 1 := by decide

theorem witness_BsGetbitResult_reads : (withArgs 0xFFFFF#32 0#32 0#32).arg0.toNat + 1 ≤ 1048576 := by decide

theorem witness_BsGetbitResult_refused : 1048576 < (withArgs 0x100000#32 0#32 0#32).arg0.toNat + 1 := by decide

theorem witness_BsSetvalResult_count : ¬ (1 ≤ 0 ∧ 0 ≤ 32) ∧ ¬ (1 ≤ 33 ∧ 33 ≤ 32) := by decide

theorem witness_BsSetvalResult_span : (1 ≤ 32 ∧ 32 ≤ 32) ∧ 1048576 < (withArgs 0xFFFE1#32 0#32 0#32).arg0.toNat + 32 := by decide

theorem witness_BsSetvalResult_writes : (1 ≤ 32 ∧ 32 ≤ 32) ∧ (withArgs 0xFFFE0#32 0#32 0#32).arg0.toNat + 32 ≤ 1048576 := by decide

theorem witness_BsGetvalCmpvalResult_count : ¬ (1 ≤ 0 ∧ 0 ≤ 32) ∧ ¬ (1 ≤ 33 ∧ 33 ≤ 32) := by decide

theorem witness_BsGetvalCmpvalResult_span : (1 ≤ 1 ∧ 1 ≤ 32) ∧ 1048576 < (withArgs 0x100000#32 0#32 0#32).arg0.toNat + 1 := by decide

theorem witness_BsGetvalCmpvalResult_reads : (1 ≤ 1 ∧ 1 ≤ 32) ∧ (withArgs 0xFFFFF#32 0#32 0#32).arg0.toNat + 1 ≤ 1048576 := by decide

theorem witness_BsSeekResult_runs : (withArgs 0x100000#32 0#32 0#32).arg0.toNat + (withArgs 0x100000#32 0#32 0#32).arg1.toNat ≤ 1048576 := by decide

theorem witness_BsSeekResult_refused : 1048576 < (withArgs 0xFFFFF#32 2#32 0#32).arg0.toNat + (withArgs 0xFFFFF#32 2#32 0#32).arg1.toNat := by decide

theorem witness_SbBandChecks_geometry : State.reset.geom = false := by decide

theorem witness_SbBandChecks_level : image32.geom = true ∧ image32.geomL.toNat < 2 := by decide

theorem witness_SbBandChecks_level_zero : image32.geom = true ∧ (0 : Nat) = 0 ∧ Orient.hl ≠ .ll := by decide

theorem witness_SbAllocFreeResult_error : State.reset.bandError 0 .ll = some ⟨.notInitialised, 0⟩ ∧ image32.bandError 2 .hh = some ⟨.badOperand, 2⟩ ∧
    image32.bandError 0 .hl = some ⟨.badOperand, 0⟩ := by decide

theorem witness_SbAllocFreeResult_room : { image32 with capBand := 7 }.bandError 1 .hh = none ∧
    { image32 with capBand := 7 }.used + { image32 with capBand := 7 }.bw 1 .hh * { image32 with capBand := 7 }.bh 1 .hh ≤ 7 := by decide

theorem witness_SbAllocFreeResult_allocated : image32.bandError 0 .ll = none ∧ image32.alloc 0 .ll = true := by decide

theorem witness_SbAllocFreeResult_no_room : let s := { image32 with capBand := 6 }
    s.bandError 1 .hh = none ∧ s.alloc 1 .hh = false ∧ s.capBand < s.used + s.bw 1 .hh * s.bh 1 .hh := by decide

theorem witness_SbWrRdResult_error : image32.bandError 2 .hh = some ⟨.badOperand, 2⟩ := by decide

theorem witness_SbWrRdResult_index : let s := { image32 with arg0 := 6#32 }
    s.bandError 0 .ll = none ∧ s.bw 0 .ll * s.bh 0 .ll ≤ s.arg0.toNat := by decide

theorem witness_SbWrRdResult_not_allocated : image32.bandError 1 .hh = none ∧ image32.arg0.toNat < image32.bw 1 .hh * image32.bh 1 .hh ∧ image32.alloc 1 .hh = false := by decide

theorem witness_SbWrRdResult_writes : let s := { image32 with arg0 := 5#32 }
    s.bandError 0 .ll = none ∧ s.arg0.toNat < s.bw 0 .ll * s.bh 0 .ll ∧ s.alloc 0 .ll = true ∧
    (s.coefs 0 .ll).length = s.bw 0 .ll * s.bh 0 .ll := by decide

theorem witness_SbInfoResult : image32.bandError 0 .hl = some ⟨.badOperand, 0⟩ ∧ image32.bandError 1 .hh = none := by decide

theorem witness_SbQuantDequantResult_error : State.reset.bandError 0 .ll = some ⟨.notInitialised, 0⟩ := by decide

theorem witness_SbQuantDequantResult_q : let s := { image32 with arg0 := 32#32 }
    s.bandError 0 .ll = none ∧ 31 < s.arg0.toNat := by decide

theorem witness_SbQuantDequantResult_not_allocated : let s := { image32 with arg0 := 31#32 }
    s.bandError 1 .hh = none ∧ s.arg0.toNat ≤ 31 ∧ s.alloc 1 .hh = false := by decide

theorem witness_SbQuantDequantResult_maps : let s := { image32 with arg0 := 31#32 }
    s.bandError 0 .ll = none ∧ s.arg0.toNat ≤ 31 ∧ s.alloc 0 .ll = true := by decide

theorem witness_QuantizerFormulas : (1 : Nat) ≤ 1 ∧ Orient.hh ≠ .ll := by decide

theorem witness_ReconstructionError : 1 ≤ 31 ∧ 31 ≤ 31 ∧ (((0x3FFFFFFF#32).toInt.natAbs : Int) < 2 ^ 31 - 2 ^ (31 - 1)) ∧ Orient.hl ≠ .ll := by decide

theorem witness_ScanOrder : 0 < 9 / 8 ∧ 0 < 10 / 8 ∧ 7 < 8 ∧ 1 < 10 % 8 ∧ 0 < 9 % 8 ∧ 8 ≤ 8 := by decide

theorem witness_SbExtractResult_error : image32.bandError 0 .hh = some ⟨.badOperand, 0⟩ := by decide

theorem witness_SbExtractResult_start : let s := { image32 with arg0 := 7#32 }
    s.bandError 0 .ll = none ∧ s.bw 0 .ll * s.bh 0 .ll < s.arg0.toNat := by decide

theorem witness_SbExtractResult_not_allocated : image32.bandError 1 .hh = none ∧ image32.arg0.toNat ≤ image32.bw 1 .hh * image32.bh 1 .hh ∧ image32.alloc 1 .hh = false := by decide

theorem witness_SbExtractResult_full : let s := { image32 with arg0 := 5#32, vpos := 16384 }
    s.bandError 0 .ll = none ∧ s.alloc 0 .ll = true ∧ s.arg0.toNat < s.bw 0 .ll * s.bh 0 .ll ∧ s.vpos = 16384 := by decide

theorem witness_SbExtractResult_moves : let s := { image32 with arg0 := 5#32, vpos := 16383 }
    s.bandError 0 .ll = none ∧ s.alloc 0 .ll = true ∧ s.arg0.toNat ≤ s.bw 0 .ll * s.bh 0 .ll ∧ s.vpos ≠ 16384 := by decide

theorem witness_SbExtractResult_finished : let s := { image32 with arg0 := 6#32, vpos := 16384 }
    s.bandError 0 .ll = none ∧ s.alloc 0 .ll = true ∧ s.arg0.toNat = s.bw 0 .ll * s.bh 0 .ll := by decide

theorem witness_SbPlaceResult_error : image32.bandError 0 .lh = some ⟨.badOperand, 0⟩ := by decide

theorem witness_SbPlaceResult_q : let s := { image32 with arg1 := 32#32 }
    s.bandError 0 .ll = none ∧ 31 < s.arg1.toNat := by decide

theorem witness_SbPlaceResult_start : let s := { image32 with arg0 := 7#32, arg1 := 31#32 }
    s.bandError 0 .ll = none ∧ s.arg1.toNat ≤ 31 ∧ s.bw 0 .ll * s.bh 0 .ll < s.arg0.toNat := by decide

theorem witness_SbPlaceResult_no_room : let s := { image32 with capBand := 6 }
    s.bandError 1 .hh = none ∧ s.arg1.toNat ≤ 31 ∧ s.arg0.toNat ≤ s.bw 1 .hh * s.bh 1 .hh ∧
    ¬ (s.alloc 1 .hh = true ∨ s.used + s.bw 1 .hh * s.bh 1 .hh ≤ s.capBand) := by decide

theorem witness_SbPlaceResult_empty : let s := { image32 with capBand := 7 }
    s.bandError 1 .hh = none ∧ s.arg1.toNat ≤ 31 ∧ s.arg0.toNat < s.bw 1 .hh * s.bh 1 .hh ∧
    (s.alloc 1 .hh = true ∨ s.used + s.bw 1 .hh * s.bh 1 .hh ≤ s.capBand) ∧ s.vlim ≤ s.vpos := by decide

theorem witness_SbPlaceResult_moves : let s := { image32 with arg0 := 5#32, arg1 := 31#32, vpos := 0, vlim := 1 }
    s.bandError 0 .ll = none ∧ s.arg1.toNat ≤ 31 ∧ s.arg0.toNat ≤ s.bw 0 .ll * s.bh 0 .ll ∧
    (s.alloc 0 .ll = true ∨ s.used + s.bw 0 .ll * s.bh 0 .ll ≤ s.capBand) ∧ s.vpos < s.vlim ∧
    (s.alloc 0 .ll = true → (s.coefs 0 .ll).length = s.bw 0 .ll * s.bh 0 .ll) := by decide

theorem witness_SbPlaceResult_allocates : let s := { image32 with capBand := 7, vlim := 1 }
    s.bandError 1 .hh = none ∧ s.arg0.toNat < s.bw 1 .hh * s.bh 1 .hh ∧ s.alloc 1 .hh = false ∧
    s.used + s.bw 1 .hh * s.bh 1 .hh ≤ s.capBand ∧ s.vpos < s.vlim := by decide

theorem witness_WtInitResult_width : (withArgs 0#32 5#32 1#32).arg0.toNat = 0 := by decide

theorem witness_WtInitResult_height : 1 ≤ (withArgs 1#32 0#32 1#32).arg0.toNat ∧ (withArgs 1#32 0#32 1#32).arg1.toNat = 0 := by decide

theorem witness_WtInitResult_area : 1 ≤ (withArgs 65536#32 65536#32 1#32).arg0.toNat ∧ 1 ≤ (withArgs 65536#32 65536#32 1#32).arg1.toNat ∧
    2 ^ 32 ≤ (withArgs 65536#32 65536#32 1#32).arg0.toNat * (withArgs 65536#32 65536#32 1#32).arg1.toNat := by decide

theorem witness_WtInitResult_levels : (withArgs 65535#32 65536#32 31#32).arg0.toNat * (withArgs 65535#32 65536#32 31#32).arg1.toNat < 2 ^ 32 ∧
    30 < (withArgs 65535#32 65536#32 31#32).arg2.toNat := by decide

theorem witness_WtInitResult_stores : 1 ≤ (withArgs 1#32 1#32 30#32).arg0.toNat ∧ 1 ≤ (withArgs 1#32 1#32 30#32).arg1.toNat ∧
    (withArgs 1#32 1#32 30#32).arg0.toNat * (withArgs 1#32 1#32 30#32).arg1.toNat < 2 ^ 32 ∧
    (withArgs 1#32 1#32 30#32).arg2.toNat ≤ 30 := by decide

theorem witness_LiftingSteps : 5 ≤ [1#32, 2#32, 3#32, 4#32, 5#32].length ∧ [1#32, 2#32, 3#32, 4#32].length < 5 ∧ 2 * 1 + 2 < 5 ∧ 2 * 1 + 1 < 5 ∧ 5 % 2 = 1 ∧
    6 % 2 = 0 := by decide

theorem witness_ForwardTransformEntries : [1#32, 2#32, 3#32, 4#32, 5#32, 6#32].length = 3 * 2 := by decide

theorem witness_PerfectReconstruction : 1 ≤ 3 ∧ 1 ≤ 2 ∧ [1#32, 2#32, 3#32, 4#32, 5#32, 6#32].length = 3 * 2 := by decide

theorem witness_WtFwdResult_geometry : State.reset.geom = false ∧ image32.geom = true ∧ image32.geomL.toNat ≤ 1 := by decide

theorem witness_WtFwdResult_quant : let s := { image32 with arg0 := 32#32 }
    s.geom = true ∧ 0 < s.geomL.toNat ∧ 31 < s.arg0.toNat := by decide

theorem witness_WtFwdResult_not_allocated : level32.geom = true ∧ 0 < level32.geomL.toNat ∧ level32.arg0.toNat ≤ 31 ∧ level32.alloc 0 .ll = false := by decide

theorem witness_WtFwdResult_no_room : let s := { image32 with capBand := 11 }
    s.geom = true ∧ 0 < s.geomL.toNat ∧ s.arg0.toNat ≤ 31 ∧ s.alloc 0 .ll = true ∧
    s.capBand < s.used + ((orients.filter fun o => !s.alloc 1 o).map fun o => s.bw 1 o * s.bh 1 o).sum := by decide

theorem witness_WtFwdResult_transforms : let s := { image32 with capBand := 12, arg0 := 31#32 }
    s.geom = true ∧ 0 < s.geomL.toNat ∧ s.arg0.toNat ≤ 31 ∧ s.alloc 0 .ll = true ∧
    s.used + ((orients.filter fun o => !s.alloc 1 o).map fun o => s.bw 1 o * s.bh 1 o).sum ≤ s.capBand := by decide

theorem witness_WtInvResult_level : State.reset.geom = false ∧ level32.geom = true ∧ ¬ (1 ≤ 0 ∧ 0 ≤ level32.geomL.toNat) ∧ ¬ (1 ≤ 2 ∧ 2 ≤ level32.geomL.toNat) := by decide

theorem witness_WtInvResult_not_allocated : image32.geom = true ∧ 1 ≤ 1 ∧ 1 ≤ image32.geomL.toNat ∧ image32.alloc 1 .hh = false := by decide

theorem witness_WtInvResult_no_room : let s := { level32 with capBand := 11 }
    s.alloc 1 .ll = true ∧ s.alloc 1 .hl = true ∧ s.alloc 1 .lh = true ∧ s.alloc 1 .hh = true ∧ s.alloc (1 - 1) .ll = false ∧
    s.capBand < s.used + s.bw (1 - 1) .ll * s.bh (1 - 1) .ll := by decide

theorem witness_WtInvResult_transforms : let s := { level32 with capBand := 12 }
    s.geom = true ∧ 1 ≤ s.geomL.toNat ∧ s.alloc 1 .ll = true ∧ s.alloc 1 .hl = true ∧ s.alloc 1 .lh = true ∧ s.alloc 1 .hh = true ∧
    s.used + s.bw (1 - 1) .ll * s.bh (1 - 1) .ll ≤ s.capBand := by decide

theorem witness_LosslessLevel : let s := { image32 with capBand := 12 }
    s.storeSound = true ∧ s.geom = true ∧ 0 < s.geomL.toNat ∧ s.alloc 0 .ll = true ∧ s.arg0 = 0#32 ∧ s.used + s.fwdNeed 0 ≤ s.capBand := by decide

theorem witness_MbClearPutGetResult_put : { State.reset with vpos := 16383 }.vpos < 16384 ∧ 16384 ≤ { State.reset with vpos := 16384 }.vpos := by decide

theorem witness_MbClearPutGetResult_get : { State.reset with vpos := 3, vlim := 4 }.vpos < { State.reset with vpos := 3, vlim := 4 }.vlim ∧ State.reset.vlim ≤ State.reset.vpos := by decide

theorem witness_MbEncodeResult : State.reset.vpos = 0 ∧ 1 ≤ filled.vpos ∧ filled.vpos ≤ 16384 := by decide

theorem witness_EncodedPayloadBounds : 1 ≤ exampleValues.length ∧ exampleValues.length ≤ 16384 ∧ isRunningMax 0 exampleValues 5 :=
  ⟨by simp [exampleValues], by simp [exampleValues], by decide, exampleValues_magnitudes,
    .inr ⟨5#32, by simp [exampleValues], by decide⟩⟩

theorem witness_MbDecodeResult_wordlen : 32768 < (loaded 32769#16 4#16).wordlen.toNat := by decide

theorem witness_MbDecodeResult_size : (loaded 32768#16 0#16).wordlen.toNat ≤ 32768 ∧ (loaded 32768#16 0#16).mbhdr.toNat % 2 ^ 15 = 0 ∧
    16384 < (loaded 32768#16 0x4001#16).mbhdr.toNat % 2 ^ 15 := by decide

theorem witness_MbDecodeResult_decodes : let s := loaded 5#16 4#16
    s.wordlen.toNat ≤ 32768 ∧ 1 ≤ s.mbhdr.toNat % 2 ^ 15 ∧ s.mbhdr.toNat % 2 ^ 15 ≤ 16384 ∧
    (decodeValues ⟨s.cb.toBits, 32 * s.wordlen.toNat⟩ (s.mbhdr.toNat % 2 ^ 15)).isOk = true := by decide

theorem witness_MbDecodeResult_stream_error : let s := loaded 4#16 4#16
    decodeValues ⟨s.cb.toBits, 32 * s.wordlen.toNat⟩ (s.mbhdr.toNat % 2 ^ 15) = .error ⟨.missingData, 128⟩ := rfl

/-- A payload of no words, a code that ends at once, a run that overshoots, a wrong sigLen, a missing sign. -/
theorem witness_MbDecodeResult_first_plane :
    BitString.getBit 0x20 5 = true ∧ getVal (BitString.getBit 0x20) 6 15 = 0 ∧
    BitString.getBit 0x60 5 = true ∧ 1 ≤ getVal (BitString.getBit 0x60) 6 15 ∧ BitString.getBit 0x60 21 = false ∧ 7 < 8 ∧
    BitString.getBit 0x40 5 = false ∧ getVal (BitString.getBit 0x40) 6 15 ≠ 2 ∧
    getVal (BitString.getBit (0x40 + 2 ^ 64)) 6 15 = 1 ∧ BitString.getBit (0x40 + 2 ^ 64) 21 = false ∧
    getVal (BitString.getBit (0x40 + 2 ^ 64)) 22 15 = 0 ∧ BitString.getBit (0x40 + 2 ^ 64) 64 = true := by decide

theorem witness_DecodeReadsOnlyPayload : ∀ p, p < 32 * 1 → BitString.getBit 5 p = BitString.getBit (5 + 2 ^ 32) p := by decide

/-- The example's fields with bit 31, a padding bit, set as well: the payload needs 5 words. -/
theorem witness_DecodeReadsOnlyPayload_fields :
    exampleValues.length = 4 ∧ (∀ v ∈ exampleValues, absCoef v ≤ 5) ∧ 5 < 2 ^ 3 ∧
    (∀ b, b < 3 → chosenForm false exampleValues b = .rlSig) ∧
    (∀ b, b < 3 → (sigCode b exampleValues).length ≤ 12) ∧
    carries (examplePayload + 2 ^ 31) (payloadLayout (chosenForm false exampleValues) 3 exampleValues) ∧
    (payloadLayout (chosenForm false exampleValues) 3 exampleValues).fin = 32 * 5 :=
  ⟨by decide, exampleValues_magnitudes, by decide, by decide, by decide, by unfold carries; decide, by decide⟩

theorem witness_EncodeDecodeRoundTrip : 1 ≤ filled.vpos ∧ filled.vpos ≤ 16384 := by decide

end Sys2Proof.Machine
end

section
/-! What one command does, said once for all 28: its checks, its effect, and the error a stream can still end in. Every
statement about all commands is then a statement about `effectOf`. -/

namespace Sys2Proof.Machine

/-- The checks a command makes before any write, in order (R224, R230). `exec_eq` ties them to `exec`. -/
def checksOf (i : Instr) (s : State) : List Check :=
  match i with
  | .nop | .bsAlign | .bsNwords | .mbClear => []
  | .bsSetbit | .bsClrbit | .bsGetbit => [checkSpan s 1]
  | .bsSetval k | .bsGetval k | .bsCmpval k => [checkCount k, checkSpan s k]
  | .bsSeek0 | .bsSeek1 => [checkSpan s s.u1]
  | .sbAlloc l o => bandChecks s l o ++ [checkRoomFor s l o]
  | .sbFree l o | .sbInfo l o => bandChecks s l o
  | .sbWr l o | .sbRd l o => bandChecks s l o ++ [checkIndex s l o, checkAlloc s l o]
  | .sbQuant l o | .sbDequant l o => bandChecks s l o ++ [checkQ s.u0, checkAlloc s l o]
  | .sbExtract l o =>
    bandChecks s l o ++
      [checkStart s l o, checkAlloc s l o,
       ⟨!(decide (s.u0 < s.bandSize l o) && s.mbFull), ⟨.mbOverflow, s.vpos⟩⟩]
  | .sbPlace l o =>
    bandChecks s l o ++
      [checkQ s.u1, checkStart s l o, checkRoomFor s l o,
       ⟨!(decide (s.u0 < s.bandSize l o) && s.mbEmpty), ⟨.mbUnderflow, s.vpos⟩⟩]
  | .wtInit =>
    [⟨decide (1 ≤ s.u0), ⟨.badOperand, s.u0⟩⟩, ⟨decide (1 ≤ s.u1), ⟨.badOperand, s.u1⟩⟩,
     ⟨decide (s.u0 * s.u1 < 2 ^ 32), ⟨.badOperand, s.u0⟩⟩, ⟨decide (s.u2 ≤ Config.maxLevel), ⟨.badOperand, s.u2⟩⟩]
  | .wtFwd l =>
    [checkGeom s, ⟨decide (l < s.levels), ⟨.badOperand, l⟩⟩, checkQ s.u0, checkAlloc s l .ll, checkRoom s (s.fwdNeed l)]
  | .wtInv l =>
    [checkGeom s, ⟨decide (1 ≤ l) && decide (l ≤ s.levels), ⟨.badOperand, l⟩⟩, checkAlloc s l .ll, checkAlloc s l .hl,
     checkAlloc s l .lh, checkAlloc s l .hh, checkRoomFor s (l - 1) .ll]
  | .mbPut => [⟨decide (s.vpos < Config.mbCap), ⟨.mbOverflow, s.vpos⟩⟩]
  | .mbGet => [⟨decide (s.vpos < s.vlim), ⟨.mbUnderflow, s.vpos⟩⟩]
  | .mbEncode _ _ => [⟨decide (1 ≤ s.vpos), ⟨.badOperand, 0⟩⟩]
  | .mbDecode => decodeChecks s

/-- What MB_DECODE writes before it completes or raises its stream error (R208 to R210). -/
def decodeEffect (s : State) : State :=
  match decodeValues s.payload s.decodeSize with
  | .ok (field, cs) => decodeWrites field cs s
  | .error _ => decodeAbandon s

/-- What a command writes once its checks hold, before it completes. `exec_eq` ties it to `exec`. -/
def effectOf (i : Instr) (s : State) : State :=
  match i with
  | .nop => s
  | .bsSetbit => { s with cb := s.cb.putBit s.u0 true }
  | .bsClrbit => { s with cb := s.cb.putBit s.u0 false }
  | .bsGetbit => { s with result0 := reg32 (s.cb.getBit s.u0).toNat }
  | .bsSetval k => { s with cb := s.cb.setVal s.u0 s.u1 k }
  | .bsGetval k => { s with result0 := reg32 (getVal s.cb.getBit s.u0 k) }
  | .bsCmpval k => { s with result0 := if getVal s.cb.getBit s.u0 k = s.u1 % 2 ^ k then 1#32 else 0#32 }
  | .bsSeek0 => { s with result0 := reg32 (seek s.cb.getBit false s.u0 s.u1) }
  | .bsSeek1 => { s with result0 := reg32 (seek s.cb.getBit true s.u0 s.u1) }
  | .bsAlign => { s with result0 := reg32 (alignWordPos s.u0) }
  | .bsNwords => { s with result0 := reg32 (numberOfWords s.u0) }
  | .sbAlloc l o => storeBand l o (List.replicate (s.bandSize l o) 0#32) s
  | .sbFree l o => freeBand l o s
  | .sbWr l o => storeBand l o ((s.coefs l o).set s.u0 s.arg1) s
  | .sbRd l o => { s with result0 := s.coef l o s.u0 }
  | .sbQuant l o => storeBand l o (quantBand s.u0 l o (s.coefs l o)) s
  | .sbDequant l o => storeBand l o (dequantBand s.u0 l o (s.coefs l o)) s
  | .sbExtract l o => extractBand l o s
  | .sbPlace l o => placeBand l o s
  | .sbInfo l o =>
    { s with result0 := reg32 (s.bw l o), result1 := reg32 (s.bh l o), result2 := reg32 (s.alloc l o).toNat }
  | .wtInit =>
    { s with bands := [], used := 0, geomW := s.arg0, geomH := s.arg1, geomL := BitVec.ofNat 5 s.u2, geom := true }
  | .wtFwd l => forwardStep l s
  | .wtInv l => inverseStep l s
  | .mbClear => { s with vpos := 0, vlim := 0, maxAbs := 0 }
  | .mbPut =>
    { s with
      vlim := 0, mbv := s.mbv.writeWords s.vpos [s.arg0], vpos := s.vpos + 1, maxAbs := max s.maxAbs (absCoef s.arg0) }
  | .mbGet => { s with result0 := s.mbv.readWord s.vpos, vpos := s.vpos + 1 }
  | .mbEncode pad tileEnd => encodeWrites pad tileEnd (encodeValues s.favorTaken (s.encodeInput pad)) s
  | .mbDecode => decodeEffect s

/-- The error a command can still raise after its checks: MB_DECODE's stream error (R210). -/
def lateError (i : Instr) (s : State) : Option Err :=
  match i with
  | .mbDecode =>
    match decodeValues s.payload s.decodeSize with
    | .ok _ => none
    | .error e => some e
  | _ => none

/-- The state in which a command ends. -/
def commandResult (i : Instr) (s : State) : State :=
  match firstFail (checksOf i s) with
  | some e => raiseErr e s
  | none =>
    match lateError i s with
    | some e => raiseErr e (effectOf i s)
    | none => complete (effectOf i s)

/-- A command without a stream error is its checks, then its effect. -/
theorem command_eq_commandResult {i : Instr} {s : State} (h : lateError i s = none) :
    command (checksOf i s) (effectOf i) s = .next (commandResult i s) := by
  unfold command commandResult
  rw [h]
  cases firstFail (checksOf i s) <;> rfl

/-- MB_DECODE ends in its result. -/
theorem execMbDecode_eq (s : State) : execMbDecode s = .next (commandResult .mbDecode s) := by
  unfold execMbDecode commandResult decodeRun lateError effectOf decodeEffect checksOf
  cases firstFail (decodeChecks s) with
  | some e => rfl
  | none => cases decodeValues s.payload s.decodeSize <;> rfl

/-- R261: every command answers its result. -/
theorem exec_eq (i : Instr) (s : State) : exec i s = .next (commandResult i s) := by
  cases i
  case mbDecode => exact execMbDecode_eq s
  all_goals rw [← command_eq_commandResult rfl]; rfl

/-- What keeps a property of the state over a command: the property survives the recording of an error and the
completion, and every effect whose checks hold keeps it. -/
theorem commandResult_keeps {P : State → Prop} (hraise : ∀ e t, P t → P (raiseErr e t))
    (hcomplete : ∀ t, P t → P (complete t)) {i : Instr} {s : State} (hs : P s)
    (heffect : firstFail (checksOf i s) = none → P (effectOf i s)) : P (commandResult i s) := by
  unfold commandResult
  cases hc : firstFail (checksOf i s) with
  | some e => exact hraise e s hs
  | none =>
    cases lateError i s with
    | some e => exact hraise e _ (heffect hc)
    | none => exact hcomplete _ (heffect hc)

/-- R43, R75: the engine's turn is the result of the command in CMD, or an illegal word's error. -/
theorem engineStep_eq (s : State) :
    engineStep s = .next (match decode s.cmd with | .ok i => commandResult i s | .error _ => illegalCommand s) := by
  unfold engineStep
  cases decode s.cmd with
  | ok i => exact exec_eq i s
  | error e => rfl

/-- Everything the engine's turn can do. -/
theorem engineStep_cases {s t : State} (h : engineStep s = .next t) :
    (∃ i, decode s.cmd = .ok i ∧ t = commandResult i s) ∨ t = illegalCommand s := by
  rw [engineStep_eq, Host.Outcome.next.injEq] at h
  cases hd : decode s.cmd with
  | ok i => exact .inl ⟨i, rfl, by rw [← h, hd]⟩
  | error e => exact .inr (by rw [← h, hd])

/-! ## What no command writes (R29, R220) -/

/-- `t` agrees with `s` on what belongs to the host: ARG0 to ARG2, CMD, CTRL and the enables taken, HAZ, CAP_BAND, the
outside's queue and its read data. -/
structure SameHostSide (s t : State) : Prop where
  arg0 : t.arg0 = s.arg0
  arg1 : t.arg1 = s.arg1
  arg2 : t.arg2 = s.arg2
  cmd : t.cmd = s.cmd
  ieDone : t.ieDone = s.ieDone
  ieErr : t.ieErr = s.ieErr
  favorSpeed : t.favorSpeed = s.favorSpeed
  ieDoneTaken : t.ieDoneTaken = s.ieDoneTaken
  ieErrTaken : t.ieErrTaken = s.ieErrTaken
  favorTaken : t.favorTaken = s.favorTaken
  haz : t.haz = s.haz
  capBand : t.capBand = s.capBand
  hostQ : t.hostQ = s.hostQ
  busData : t.busData = s.busData

/-- `t` agrees with `s` on what the effect of a command never writes: the host's side, and the control state, which is
left to the completion and to errors. -/
structure KeptByEffect (s t : State) : Prop extends SameHostSide s t where
  busy : t.busy = s.busy
  done : t.done = s.done
  pending : t.pending = s.pending
  err : t.err = s.err
  errcode : t.errcode = s.errcode
  errcmd : t.errcmd = s.errcmd
  errarg : t.errarg = s.errarg

/-- `t` is `s` but for the subband store. -/
def StoreOnly (s t : State) : Prop := ∃ bands used, t = { s with bands := bands, used := used }

theorem StoreOnly.refl (s : State) : StoreOnly s s := ⟨_, _, rfl⟩

theorem StoreOnly.storeBand {s t : State} (l : Nat) (o : Orient) (cs : List Word) (h : StoreOnly s t) :
    StoreOnly s (storeBand l o cs t) := by
  obtain ⟨bands, used, rfl⟩ := h
  exact ⟨_, _, rfl⟩

theorem StoreOnly.freeBand {s t : State} (l : Nat) (o : Orient) (h : StoreOnly s t) : StoreOnly s (freeBand l o t) := by
  obtain ⟨bands, used, rfl⟩ := h
  exact ⟨_, _, rfl⟩

theorem forwardStep_storeOnly (l : Nat) (s : State) : StoreOnly s (forwardStep l s) :=
  (((((StoreOnly.refl s).storeBand _ _ _).storeBand _ _ _).storeBand _ _ _).storeBand _ _ _).freeBand _ _

theorem inverseStep_storeOnly (l : Nat) (s : State) : StoreOnly s (inverseStep l s) :=
  (((((StoreOnly.refl s).storeBand _ _ _).freeBand _ _).freeBand _ _).freeBand _ _).freeBand _ _

theorem decodeEffect_cases (s : State) :
    (∃ field cs, decodeValues s.payload s.decodeSize = .ok (field, cs) ∧ decodeEffect s = decodeWrites field cs s) ∨
      decodeEffect s = decodeAbandon s := by
  unfold decodeEffect
  cases decodeValues s.payload s.decodeSize with
  | ok r => exact .inl ⟨r.1, r.2, rfl, rfl⟩
  | error e => exact .inr rfl

theorem StoreOnly.keptByEffect {s t : State} (h : StoreOnly s t) : KeptByEffect s t := by
  obtain ⟨bands, used, rfl⟩ := h
  constructor <;> constructor <;> rfl

theorem effectOf_keptByEffect (i : Instr) (s : State) : KeptByEffect s (effectOf i s) := by
  cases i
  case wtFwd l => exact (forwardStep_storeOnly l s).keptByEffect
  case wtInv l => exact (inverseStep_storeOnly l s).keptByEffect
  case mbDecode =>
    rcases decodeEffect_cases s with ⟨field, cs, -, h⟩ | h <;>
      (rw [effectOf, h]; constructor <;> constructor <;> rfl)
  all_goals constructor <;> constructor <;> rfl

theorem SameHostSide.refl (s : State) : SameHostSide s s := by constructor <;> rfl

theorem SameHostSide.complete {s t : State} (h : SameHostSide s t) : SameHostSide s (complete t) := { h with }

theorem SameHostSide.raiseErr {s t : State} (e : Err) (h : SameHostSide s t) : SameHostSide s (raiseErr e t) := { h with }

theorem commandResult_sameHostSide (i : Instr) (s : State) : SameHostSide s (commandResult i s) :=
  commandResult_keeps (P := SameHostSide s) (fun e _ h => h.raiseErr e) (fun _ h => h.complete) (.refl s)
    fun _ => (effectOf_keptByEffect i s).toSameHostSide

/-- R226: every command leaves BUSY = 0, DONE = 1 and nothing pending. -/
theorem commandResult_completed (i : Instr) (s : State) :
    (commandResult i s).busy = false ∧ (commandResult i s).done = true ∧ (commandResult i s).pending = false := by
  unfold commandResult
  cases firstFail (checksOf i s) with
  | some e => exact ⟨rfl, rfl, rfl⟩
  | none => cases lateError i s <;> exact ⟨rfl, rfl, rfl⟩

/-- R261: the engine's turn always completes, and writes nothing of the host's. -/
theorem engineStep_completes (s : State) : ∃ t, engineStep s = .next t ∧
    t.busy = false ∧ t.done = true ∧ t.pending = false ∧ SameHostSide s t := by
  refine ⟨_, engineStep_eq s, ?_⟩
  cases decode s.cmd with
  | ok i =>
    obtain ⟨hbusy, hdone, hpending⟩ := commandResult_completed i s
    exact ⟨hbusy, hdone, hpending, commandResult_sameHostSide i s⟩
  | error e => exact ⟨rfl, rfl, rfl, (SameHostSide.refl s).raiseErr _⟩

end Sys2Proof.Machine
end

section
/-! What keeps a property over every step of the machine: the parts a step is made of, and the state that each of them
leaves alone. -/

namespace Sys2Proof.Machine

/-! ## Host accesses -/

/-- R51: the CB window names words of CB only. -/
theorem lt_codeWords_of_targetAt {a i : Nat} (h : targetAt a = .cb i) : i < Config.codeWords := by
  unfold targetAt at h
  split at h
  · cases hr : regAt a <;> simp [hr] at h
  · split at h
    · cases h
    · split at h
      · next hlt =>
        cases h
        exact Nat.div_lt_of_lt_mul (by omega)
      · cases h

/-- Everything a host write can do, the word of CB it names among it. -/
theorem hostWrite_next {width : Nat} {addr : BitVec 20} {v : Word} {s t : State}
    (h : hostWrite width addr v s = .next t) :
    t = s ∨ (∃ r, t = writeReg v s r) ∨
      ∃ i, i < Config.codeWords ∧ t = writeIfIdle (fun u => { u with cb := u.cb.writeWords i [v] }) s := by
  unfold hostWrite at h
  split at h
  · split at h
    · next r _ => cases h; exact .inr (.inl ⟨r, rfl⟩)
    · cases h; exact .inl rfl
    · cases h
    · next i hi => cases h; exact .inr (.inr ⟨i, lt_codeWords_of_targetAt hi, rfl⟩)
    · cases h
  · cases h

/-- A write that BUSY refuses is a hazard or the write. -/
theorem writeIfIdle_cases (f : State → State) (s : State) :
    (s.busy = true ∧ writeIfIdle f s = hazard s) ∨ (s.busy = false ∧ writeIfIdle f s = f s) := by
  unfold writeIfIdle
  cases s.busy <;> simp

/-- R24, R227: a STATUS write clears what it has a 1 for. -/
theorem writeStatus_eq (v : Word) (s : State) : writeStatus v s =
    { s with
      done := s.done && !v.getLsbD 1
      err := s.err && !v.getLsbD 2
      haz := s.haz && !v.getLsbD 3
      errcode := if v.getLsbD 2 then 0#8 else s.errcode
      errcmd := if v.getLsbD 2 then 0#32 else s.errcmd
      errarg := if v.getLsbD 2 then 0#32 else s.errarg } := by
  unfold writeStatus acknowledgeErr
  cases v.getLsbD 1 <;> cases v.getLsbD 2 <;> cases v.getLsbD 3 <;> simp

/-! ## The parts of a step -/

/-- The property survives every part that a step can be made of. -/
structure KeptByParts (P : State → Prop) : Prop where
  outside : ∀ s q v n, P s → P { s with hostQ := q, busData := v, freeCtr := n }
  reset : ∀ s, P s → P (resetEngine s)
  register : ∀ v s r, P s → P (writeReg v s r)
  refused : ∀ s, P s → P (hazard s)
  codeWord : ∀ s i v, i < Config.codeWords → P s → P { s with cb := s.cb.writeWords i [v] }
  raised : ∀ e s, P s → P (raiseErr e s)
  completed : ∀ s, P s → P (complete s)
  effect : ∀ i s, firstFail (checksOf i s) = none → P s → P (effectOf i s)

section

variable {P : State → Prop} {s t : State}

theorem KeptByParts.busEvent (k : KeptByParts P) {op : BusOp} (hs : P s) (h : busEvent op s = .next t) : P t := by
  cases op with
  | read width addr =>
    rcases hostRead_cases width addr s with hf | ⟨v, n, hr⟩
    · exact absurd (hf.symm.trans h) (by simp)
    · cases hr.symm.trans h
      exact k.outside s s.hostQ v _ hs
  | write width addr v =>
    rcases hostWrite_next h with rfl | ⟨r, rfl⟩ | ⟨i, hi, rfl⟩
    · exact hs
    · exact k.register v s r hs
    · rcases writeIfIdle_cases (fun u => { u with cb := u.cb.writeWords i [v] }) s with ⟨-, he⟩ | ⟨-, he⟩ <;> rw [he]
      · exact k.refused s hs
      · exact k.codeWord s i v hi hs
  | reset =>
    cases h
    exact k.reset s hs

theorem KeptByParts.engineStep (k : KeptByParts P) (hs : P s) (h : engineStep s = .next t) : P t := by
  rcases engineStep_cases h with ⟨i, -, rfl⟩ | rfl
  · exact commandResult_keeps k.raised k.completed hs fun hc => k.effect i s hc hs
  · exact k.raised _ s hs

/-- A property that every part keeps is kept by every step. -/
theorem KeptByParts.step (k : KeptByParts P) (hs : P s) (h : step s = .next t) : P t := by
  rcases step_cases s with ⟨-, he⟩ | ⟨-, -, he⟩ | ⟨e, rest, -, -, he⟩ <;> rw [he] at h
  · exact k.engineStep hs h
  · cases h
    exact hs
  · exact k.busEvent (k.outside s rest s.busData s.freeCtr hs) h

end

/-! ## The units behind the registers -/

/-- `t` agrees with `s` on the macroblock, the subband store, its geometry and the memories (R38 to R42). -/
structure SameUnits (s t : State) : Prop where
  geom : t.geom = s.geom
  vpos : t.vpos = s.vpos
  vlim : t.vlim = s.vlim
  maxAbs : t.maxAbs = s.maxAbs
  geomW : t.geomW = s.geomW
  geomH : t.geomH = s.geomH
  geomL : t.geomL = s.geomL
  capBand : t.capBand = s.capBand
  cb : t.cb = s.cb
  mbv : t.mbv = s.mbv
  sf : t.sf = s.sf
  sigt : t.sigt = s.sigt
  reft : t.reft = s.reft
  sgnt : t.sgnt = s.sgnt
  bands : t.bands = s.bands
  used : t.used = s.used

theorem SameUnits.refl (s : State) : SameUnits s s := by constructor <;> rfl

theorem hazard_sameUnits (s : State) : SameUnits s (hazard s) := by constructor <;> rfl

theorem writeIfIdle_sameUnits {f : State → State} {s : State} (hf : SameUnits s (f s)) :
    SameUnits s (writeIfIdle f s) := by
  rcases writeIfIdle_cases f s with ⟨-, he⟩ | ⟨-, he⟩ <;> rw [he]
  · exact hazard_sameUnits s
  · exact hf

theorem writeStatus_sameUnits (v : Word) (s : State) : SameUnits s (writeStatus v s) := by
  rw [writeStatus_eq]
  constructor <;> rfl

/-- A register write resets the engine or leaves the units alone. -/
theorem writeReg_reset_or_sameUnits (v : Word) (s : State) (r : Reg) :
    writeReg v s r = resetEngine s ∨ SameUnits s (writeReg v s r) := by
  cases r
  case ctrl =>
    rcases writeCtrl_cases v s with ⟨-, he⟩ | ⟨-, -, he⟩ | ⟨-, -, he⟩ <;> rw [writeReg, he]
    · exact .inl rfl
    · exact .inr (by constructor <;> rfl)
    · exact .inr (by constructor <;> rfl)
  case cmd =>
    rcases writeCmd_cases v s with ⟨-, he⟩ | ⟨-, -, he⟩ <;> rw [writeReg, he] <;> exact .inr (by constructor <;> rfl)
  case status => exact .inr (writeStatus_sameUnits v s)
  case arg0 | arg1 | arg2 | wordlen | mbhdr => 
    rw [writeReg]
    refine .inr (writeIfIdle_sameUnits ?_)
    constructor <;> rfl
  all_goals exact .inr (.refl s)

/-- A property of the units is kept by every step once resets, CB writes and the effects of the commands keep it. -/
theorem keptByParts_of_units {P : State → Prop} (units : ∀ {s t}, SameUnits s t → P s → P t)
    (reset : ∀ s, P s → P (resetEngine s))
    (codeWord : ∀ s i v, i < Config.codeWords → P s → P { s with cb := s.cb.writeWords i [v] })
    (effect : ∀ i s, firstFail (checksOf i s) = none → P s → P (effectOf i s)) : KeptByParts P where
  outside s q v n hs := units (s := s) (by constructor <;> rfl) hs
  reset := reset
  register v s r hs := by
    rcases writeReg_reset_or_sameUnits v s r with he | hu
    · rw [he]
      exact reset s hs
    · exact units hu hs
  refused s hs := units (hazard_sameUnits s) hs
  codeWord := codeWord
  raised e s hs := units (s := s) (by constructor <;> rfl) hs
  completed s hs := units (s := s) (by constructor <;> rfl) hs
  effect := effect

end Sys2Proof.Machine
end

section
/-! The control state (10_state.md R24 to R28, R43; 60_exceptions.md R221 to R228). -/

namespace Sys2Proof.Machine

theorem controlSound_iff (s : State) : s.controlSound = true ↔
    s.busy = s.pending ∧ (s.pending = true → s.err = false) ∧ s.errcode ∈ legalErrcodes ∧
      (s.err = false → s.errcode = 0#8 ∧ s.errcmd = 0#32 ∧ s.errarg = 0#32) := by
  unfold State.controlSound
  cases s.pending <;> cases s.err <;> simp [and_assoc]

theorem ErrCode.code_mem_legalErrcodes (e : ErrCode) : e.code ∈ legalErrcodes := by cases e <;> decide

theorem zero_mem_legalErrcodes : 0#8 ∈ legalErrcodes := by decide

/-- The control state is sound once BUSY, `pending` and the error state are as in a sound state. -/
theorem controlSound_of_same {s t : State} (hs : s.controlSound = true) (hbusy : t.busy = s.busy)
    (hpending : t.pending = s.pending) (herr : t.err = s.err) (hcode : t.errcode = s.errcode)
    (hcmd : t.errcmd = s.errcmd) (harg : t.errarg = s.errarg) : t.controlSound = true := by
  rw [controlSound_iff] at hs ⊢
  rwa [hbusy, hpending, herr, hcode, hcmd, harg]

/-- BUSY, ERR and the error registers all 0 with nothing pending is sound. -/
theorem controlSound_of_clear {s : State} (hbusy : s.busy = s.pending) (herr : s.err = false) (hcode : s.errcode = 0#8)
    (hcmd : s.errcmd = 0#32) (harg : s.errarg = 0#32) : s.controlSound = true :=
  (controlSound_iff s).2
    ⟨hbusy, fun _ => herr, hcode ▸ zero_mem_legalErrcodes, fun _ => ⟨hcode, hcmd, harg⟩⟩

theorem controlSound_hazard {s : State} (hs : s.controlSound = true) : (hazard s).controlSound = true := hs

theorem controlSound_writeIfIdle {f : State → State} {s : State} (hs : s.controlSound = true)
    (hf : (f s).controlSound = true) : (writeIfIdle f s).controlSound = true := by
  rcases writeIfIdle_cases f s with ⟨-, he⟩ | ⟨-, he⟩ <;> rw [he]
  · exact controlSound_hazard hs
  · exact hf

theorem controlSound_writeStatus (v : Word) {s : State} (hs : s.controlSound = true) :
    (writeStatus v s).controlSound = true := by
  rw [writeStatus_eq]
  cases v.getLsbD 2 with
  | true =>
    obtain ⟨hbusy, -, -, -⟩ := (controlSound_iff s).1 hs
    exact controlSound_of_clear hbusy (Bool.and_false _) rfl rfl rfl
  | false => exact controlSound_of_same hs rfl rfl (Bool.and_true _) rfl rfl rfl

/-- R28: an accepted CMD write finds ERR = 0, so the error registers are 0 while the command is pending. -/
theorem controlSound_writeCmd (v : Word) {s : State} (hs : s.controlSound = true) :
    (writeCmd v s).controlSound = true := by
  rcases writeCmd_cases v s with ⟨-, he⟩ | ⟨-, herr, he⟩ <;> rw [he]
  · exact controlSound_hazard hs
  · obtain ⟨-, -, -, hclear⟩ := (controlSound_iff s).1 hs
    obtain ⟨hcode, hcmd, harg⟩ := hclear herr
    exact controlSound_of_clear rfl herr hcode hcmd harg

theorem controlSound_resetEngine (s : State) : (resetEngine s).controlSound = true :=
  controlSound_of_clear rfl rfl rfl rfl rfl

theorem controlSound_writeReg (v : Word) {s : State} (r : Reg) (hs : s.controlSound = true) :
    (writeReg v s r).controlSound = true := by
  cases r
  case ctrl =>
    rcases writeCtrl_cases v s with ⟨-, he⟩ | ⟨-, -, he⟩ | ⟨-, -, he⟩ <;> rw [writeReg, he]
    · exact controlSound_resetEngine s
    · exact hs
    · exact hs
  case status => exact controlSound_writeStatus v hs
  case cmd => exact controlSound_writeCmd v hs
  case arg0 | arg1 | arg2 | wordlen | mbhdr => exact controlSound_writeIfIdle hs hs
  all_goals exact hs

/-- R222: an error leaves nothing pending and a code of R221. -/
theorem controlSound_raiseErr (e : Err) (s : State) : (raiseErr e s).controlSound = true :=
  (controlSound_iff _).2 ⟨rfl, nofun, e.code.code_mem_legalErrcodes, nofun⟩

theorem controlSound_complete {s : State} (hs : s.controlSound = true) : (complete s).controlSound = true := by
  obtain ⟨-, -, hcode, hclear⟩ := (controlSound_iff s).1 hs
  exact (controlSound_iff _).2 ⟨rfl, nofun, hcode, hclear⟩

theorem controlSound_keptByParts : KeptByParts fun s => s.controlSound = true where
  outside _ _ _ _ hs := hs
  reset s _ := controlSound_resetEngine s
  register v _ r hs := controlSound_writeReg v r hs
  refused _ hs := controlSound_hazard hs
  codeWord _ _ _ _ hs := hs
  raised e s _ := controlSound_raiseErr e s
  completed _ hs := controlSound_complete hs
  effect i s _ hs :=
    let k := effectOf_keptByEffect i s
    controlSound_of_same hs k.busy k.pending k.err k.errcode k.errcmd k.errarg

/-- Settles O6: every part of a step keeps the control state sound; an accepted CMD write finds ERR = 0, and an error
completes its command. -/
theorem controlSoundKept : Obligations.ControlSoundKept := by
  unfold Obligations.ControlSoundKept
  intro s s' hs h
  exact controlSound_keptByParts.step hs h

end Sys2Proof.Machine
end

section
/-! The memories (10_state.md R38, R39, R41; 43_mb_encoder.md R190). -/

namespace Sys2Proof.Machine

/-! ## Stores inside a capacity -/

theorem memory_sound_iff (m : Memory) (n : Nat) : m.sound n = true ↔ m.wf = true ∧ m.below (4 * n) = true := by
  simp [Memory.sound]

theorem wordBytes_length (w : Word) : (wordBytes w).length = 4 := rfl

theorem length_flatMap_wordBytes (ws : List Word) : (ws.flatMap wordBytes).length = 4 * ws.length := by
  induction ws with
  | nil => rfl
  | cons w ws ih =>
    simp only [List.flatMap_cons, List.length_append, List.length_cons, wordBytes_length, ih]
    omega

theorem below_filter {m : Memory} {n : Nat} (h : m.below n = true) (p : Host.Cell → Bool) :
    Memory.below (m.filter p) n = true := by
  simp only [Memory.below, List.all_eq_true] at h ⊢
  exact fun c hc => h c (List.mem_of_mem_filter hc)

/-- A store of words that ends inside the array keeps it sound; a store of no words may start anywhere. -/
theorem sound_writeWords {m : Memory} {n : Nat} (h : m.sound n = true) (i : Nat) (ws : List Word)
    (hfit : ws = [] ∨ i + ws.length ≤ n) : (m.writeWords i ws).sound n = true := by
  obtain ⟨hwf, hbelow⟩ := (memory_sound_iff m n).1 h
  refine (memory_sound_iff _ _).2 ⟨Memory.wf_writeWords hwf i ws, ?_⟩
  rcases hfit with rfl | hfit
  · simp only [Memory.below, List.all_eq_true] at hbelow ⊢
    intro c hc
    have hcm : c ∈ m := by
      simp only [Memory.writeWords, Memory.write, cellsOf, List.flatMap_nil, List.append_nil, List.mem_append,
        List.mem_filter] at hc
      exact hc.elim And.left And.left
    exact hbelow c hcm
  · refine Memory.below_write hbelow _ _ ?_
    rw [length_flatMap_wordBytes]
    omega

theorem sound_clear {m : Memory} {n : Nat} (h : m.sound n = true) (a k : Nat) : (m.clear a k).sound n = true := by
  obtain ⟨hwf, hbelow⟩ := (memory_sound_iff m n).1 h
  exact (memory_sound_iff _ _).2 ⟨Memory.wf_clear hwf a k, below_filter hbelow _⟩

theorem sound_putBit {m : Memory} {n p : Nat} (h : m.sound n = true) (hp : p < 32 * n) (b : Bool) :
    (m.putBit p b).sound n = true := by
  obtain ⟨hwf, hbelow⟩ := (memory_sound_iff m n).1 h
  refine (memory_sound_iff _ _).2 ⟨Memory.wf_putBit hwf p b, Memory.below_write hbelow _ _ ?_⟩
  simp only [List.length_cons, List.length_nil]
  omega

theorem sound_setVal {n : Nat} (k : Nat) {m : Memory} (h : m.sound n = true) (p v : Nat) (hp : p + k ≤ 32 * n) :
    (m.setVal p v k).sound n = true := by
  induction k generalizing m p v with
  | zero => exact h
  | succ k ih => exact ih (sound_putBit h (by omega) _) (p + 1) (v / 2) (by omega)

theorem sound_ofBits (n : Nat) (a : BitString) : (Memory.ofBits (4 * n) a).sound n = true :=
  (memory_sound_iff _ _).2 ⟨Memory.wf_ofBits _ a, Memory.below_ofBits _ a⟩

theorem sound_cellsOf_words {n : Nat} (ws : List Word) (h : ws.length ≤ n) :
    Memory.sound (cellsOf 0 (ws.flatMap wordBytes)) n = true := by
  refine (memory_sound_iff _ _).2 ⟨wf_cellsOf _, Memory.below_cellsOf _ _ _ ?_⟩
  rw [length_flatMap_wordBytes]
  omega

/-! ## The decoder keeps the number of coefficients (R200) -/

theorem walk_length {σ : Type} (y : Payload) (r : RefRegion) (b : Nat) (step : PosStep σ) (cs : List Coef) :
    ∀ {rp : Nat} {x : σ} {cs' : List Coef} {x' : σ}, walk y r b step cs rp x = .ok (cs', x') →
      cs'.length = cs.length := by
  induction cs with
  | nil =>
    intro rp x cs' x' h
    cases h
    rfl
  | cons e t ih =>
    intro rp x cs' x' h
    rw [walk] at h
    repeat' split at h
    all_goals cases h
    all_goals rw [List.length_cons, List.length_cons, ih ‹walk y r b step t _ _ = .ok _›]

theorem decodeRlSig_length {y : Payload} {b cp ns : Nat} {cs cs' : List Coef} {r : Nat}
    (h : decodeRlSig y b cp ns cs = .ok (cs', r)) : cs'.length = cs.length := by
  unfold decodeRlSig at h
  split at h
  · cases h
  · dsimp only at h
    split at h
    · cases h
    · next hw =>
      split at h
      · cases h
      · cases h
        exact walk_length _ _ _ _ _ hw

theorem decodeLiteral_length {σ : Type} {y : Payload} {b ns sls sigStart : Nat}
    {sign : σ → Except Err (Bool × σ)} {x : σ} {cs cs' : List Coef} {r : Nat}
    (h : decodeLiteral y b ns sls sigStart sign x cs = .ok (cs', r)) : cs'.length = cs.length := by
  unfold decodeLiteral at h
  dsimp only at h
  split at h
  · cases h
  · next hw =>
    cases h
    exact walk_length _ _ _ _ _ hw

theorem decodeLiteralSig_length {y : Payload} {b cp ns : Nat} {cs cs' : List Coef} {r : Nat}
    (h : decodeLiteralSig y b cp ns cs = .ok (cs', r)) : cs'.length = cs.length := by
  unfold decodeLiteralSig decodeRlSign decodeLiteralSign at h
  repeat' split at h
  all_goals try cases h
  · exact decodeLiteral_length h
  · exact decodeLiteral_length h

theorem decodeSig_length {y : Payload} {b cp ns : Nat} {cs cs' : List Coef} {r : Nat}
    (h : decodeSig y b cp ns cs = .ok (cs', r)) : cs'.length = cs.length := by
  unfold decodeSig at h
  split at h
  · cases h
  · exact decodeRlSig_length h
  · exact decodeLiteralSig_length h

theorem decodePlane_length {y : Payload} {b cp : Nat} {cs cs' : List Coef} {r : Nat}
    (h : decodePlane y b cp cs = .ok (cs', r)) : cs'.length = cs.length := by
  unfold decodePlane at h
  dsimp only at h
  split at h
  · cases h
  · next hs =>
    split at h
    · cases h
    · cases h
      exact decodeSig_length hs

theorem decodePlanes_length {y : Payload} (n : Nat) :
    ∀ {cp : Nat} {cs cs' : List Coef}, decodePlanes y n cp cs = .ok cs' → cs'.length = cs.length := by
  induction n with
  | zero =>
    intro cp cs cs' h
    cases h
    rfl
  | succ n ih =>
    intro cp cs cs' h
    rw [decodePlanes] at h
    cases hp : decodePlane y n cp cs with
    | error z => simp [hp] at h
    | ok q =>
      obtain ⟨cs1, cp1⟩ := q
      rw [hp] at h
      exact (ih h).trans (decodePlane_length hp)

/-- R200, R208: a decoded macroblock has the coefficients asked for. -/
theorem decodeValues_length {y : Payload} {bs field : Nat} {cs : List Coef}
    (h : decodeValues y bs = .ok (field, cs)) : cs.length = bs := by
  unfold decodeValues at h
  split at h
  · cases h
  · split at h
    · cases h
    · next hd =>
      cases h
      rw [decodePlanes_length _ hd, List.length_replicate]

/-! ## Every step (R38, R39, R41) -/

theorem memoriesSound_iff (s : State) : s.memoriesSound = true ↔
    s.cb.sound Config.codeWords = true ∧ s.mbv.sound Config.mbCap = true ∧ s.sigt.sound Config.tmpWords = true ∧
      s.reft.sound Config.tmpWords = true ∧ s.sgnt.sound Config.tmpWords = true := by
  simp [State.memoriesSound, and_assoc]

theorem mbv_sound {s : State} (hs : s.memoriesSound = true) : s.mbv.sound Config.mbCap = true := by
  obtain ⟨-, hmbv, -⟩ := (memoriesSound_iff s).1 hs
  exact hmbv

theorem cb_sound {s : State} (hs : s.memoriesSound = true) : s.cb.sound Config.codeWords = true :=
  ((memoriesSound_iff s).1 hs).1

theorem memoriesSound_of_sameUnits {s t : State} (h : SameUnits s t) (hs : s.memoriesSound = true) :
    t.memoriesSound = true := by
  rw [memoriesSound_iff] at hs ⊢
  rwa [h.cb, h.mbv, h.sigt, h.reft, h.sgnt]

theorem memoriesSound_resetEngine (s : State) : (resetEngine s).memoriesSound = true := rfl

theorem memoriesSound_set_cb {s : State} {m : Memory} (hs : s.memoriesSound = true)
    (hm : m.sound Config.codeWords = true) : { s with cb := m }.memoriesSound = true := by
  obtain ⟨-, hrest⟩ := (memoriesSound_iff s).1 hs
  exact (memoriesSound_iff _).2 ⟨hm, hrest⟩

theorem memoriesSound_set_mbv {s : State} {m : Memory} (hs : s.memoriesSound = true)
    (hm : m.sound Config.mbCap = true) : { s with mbv := m }.memoriesSound = true := by
  obtain ⟨hcb, -, hrest⟩ := (memoriesSound_iff s).1 hs
  exact (memoriesSound_iff _).2 ⟨hcb, hm, hrest⟩

/-- The store is no memory. -/
theorem memoriesSound_of_storeOnly {s t : State} (h : StoreOnly s t) (hs : s.memoriesSound = true) :
    t.memoriesSound = true := by
  obtain ⟨bands, used, rfl⟩ := h
  exact hs

theorem extracted_fits (s : State) (l : Nat) (o : Orient) :
    s.extracted l o = [] ∨ s.vpos + (s.extracted l o).length ≤ Config.mbCap := by
  have hlen : (s.extracted l o).length ≤ Config.mbCap - s.vpos := by
    simp only [State.extracted, State.scanSpan, List.length_map, List.length_take, State.extractCount]
    omega
  by_cases h : s.vpos ≤ Config.mbCap
  · exact .inr (by omega)
  · exact .inl (List.eq_nil_of_length_eq_zero (by omega))

theorem checkSpan_ok {s : State} {n : Nat} (h : (checkSpan s n).ok = true) : s.u0 + n ≤ 32 * Config.codeWords := by
  have hspan : s.u0 + n ≤ Config.capBits := by simpa [checkSpan] using h
  have hcap : Config.capBits = 32 * Config.codeWords := rfl
  omega

theorem memoriesSound_encodeWrites {s : State} (pad tileEnd : Bool) (e : EncState) (hs : s.memoriesSound = true) :
    (encodeWrites pad tileEnd e s).memoriesSound = true := by
  have hpadded : (s.paddedMbv pad).sound Config.mbCap = true := by
    cases pad
    · exact mbv_sound hs
    · exact sound_clear (mbv_sound hs) _ _
  exact (memoriesSound_iff _).2 ⟨sound_ofBits _ _, hpadded, sound_ofBits _ _, sound_ofBits _ _, sound_ofBits _ _⟩

/-- R197: the checks of MB_DECODE bound the macroblock's size. -/
theorem decodeSize_le {s : State} (hc : firstFail (checksOf .mbDecode s) = none) : s.decodeSize ≤ Config.mbCap := by
  have h := (firstFail_eq_none _).1 hc
  simp only [checksOf, decodeChecks, List.forall_mem_cons, Bool.and_eq_true, decide_eq_true_eq] at h
  obtain ⟨-, ⟨-, hle⟩, -⟩ := h
  exact hle

theorem memoriesSound_decodeEffect {s : State} (hc : firstFail (checksOf .mbDecode s) = none)
    (hs : s.memoriesSound = true) : (decodeEffect s).memoriesSound = true := by
  rcases decodeEffect_cases s with ⟨field, cs, hd, he⟩ | he <;> rw [he]
  · refine memoriesSound_set_mbv (s := s) hs (sound_writeWords (mbv_sound hs) 0 _ (.inr ?_))
    rw [List.length_map, decodeValues_length hd, Nat.zero_add]
    exact decodeSize_le hc
  · exact memoriesSound_set_mbv (s := s) hs (sound_cellsOf_words _ (by simp))

theorem memoriesSound_effectOf (i : Instr) (s : State) (hc : firstFail (checksOf i s) = none)
    (hs : s.memoriesSound = true) : (effectOf i s).memoriesSound = true := by
  have checks := (firstFail_eq_none _).1 hc
  cases i
  case bsSetbit | bsClrbit =>
    have hspan := checkSpan_ok (checks (checkSpan s 1) (by simp [checksOf]))
    exact memoriesSound_set_cb hs (sound_putBit (cb_sound hs) (by omega) _)
  case bsSetval k =>
    have hspan := checkSpan_ok (checks (checkSpan s k) (by simp [checksOf]))
    exact memoriesSound_set_cb hs (sound_setVal k (cb_sound hs) _ _ hspan)
  case sbExtract l o =>
    exact memoriesSound_set_mbv (s := s) hs (sound_writeWords (mbv_sound hs) _ _ (extracted_fits s l o))
  case wtFwd l => exact memoriesSound_of_storeOnly (forwardStep_storeOnly l s) hs
  case wtInv l => exact memoriesSound_of_storeOnly (inverseStep_storeOnly l s) hs
  case mbPut =>
    have hroom : s.vpos < Config.mbCap := by simpa [checksOf] using checks
    exact memoriesSound_set_mbv (s := s) hs (sound_writeWords (mbv_sound hs) _ _ (.inr hroom))
  case mbEncode pad tileEnd => exact memoriesSound_encodeWrites pad tileEnd _ hs
  case mbDecode => exact memoriesSound_decodeEffect hc hs
  all_goals exact hs

theorem memoriesSound_keptByParts : KeptByParts fun s => s.memoriesSound = true :=
  keptByParts_of_units memoriesSound_of_sameUnits (fun s _ => memoriesSound_resetEngine s)
    (fun _ _ _ hi hs => memoriesSound_set_cb hs (sound_writeWords (cb_sound hs) _ _ (.inr hi))) memoriesSound_effectOf

/-- Settles O7: every store of a part of a step ends inside its memory, by the command's own checks, and keeps the
canonical form. -/
theorem memoriesSoundKept : Obligations.MemoriesSoundKept := by
  unfold Obligations.MemoriesSoundKept
  intro s s' hs h
  exact memoriesSound_keptByParts.step hs h

end Sys2Proof.Machine
end

section
/-! The macroblock's positions, its maximum and its significance flags (10_state.md R39, R40). -/

namespace Sys2Proof.Machine

/-! ## Rising lists -/

theorem indicesRise_iff (l : List Nat) : ∀ lo : Nat, indicesRise lo l = true ↔ l.Pairwise (· < ·) ∧ ∀ i ∈ l, lo ≤ i := by
  induction l with
  | nil => intro lo; simp [indicesRise]
  | cons i t ih =>
    intro lo
    simp only [indicesRise, Bool.and_eq_true, decide_eq_true_eq, ih, List.pairwise_cons, List.forall_mem_cons,
      Nat.add_one_le_iff]
    constructor
    · rintro ⟨hlo, hp, hi⟩
      exact ⟨⟨hi, hp⟩, hlo, fun j hj => hlo.trans (hi j hj).le⟩
    · rintro ⟨⟨hi, hp⟩, hlo, -⟩
      exact ⟨hlo, hp, hi⟩

theorem indicesRise_zero_iff (l : List Nat) : indicesRise 0 l = true ↔ l.Pairwise (· < ·) := by
  simp [indicesRise_iff]

theorem sigIndices_rise (cs : List Coef) : ∀ i, indicesRise i (sigIndices i cs) = true := by
  induction cs with
  | nil => intro i; simp [sigIndices, indicesRise]
  | cons c t ih =>
    intro i
    have ht := ih (i + 1)
    rw [sigIndices]
    split
    · simp [indicesRise, ht]
    · rw [indicesRise_iff] at ht ⊢
      exact ⟨ht.1, fun j hj => Nat.le_of_succ_le (ht.2 j hj)⟩

theorem sigIndices_le (cs : List Coef) : ∀ i, ∀ j ∈ sigIndices i cs, j ≤ i + cs.length := by
  induction cs with
  | nil => intro i j hj; simp_all [sigIndices]
  | cons c t ih =>
    intro i j hj
    have ht : j = i ∨ j ∈ sigIndices (i + 1) t := by
      rw [sigIndices] at hj
      split at hj
      · exact List.mem_cons.1 hj
      · exact .inr hj
    rcases ht with rfl | ht
    · omega
    · have := ih (i + 1) j ht
      simp only [List.length_cons]
      omega

/-! ## The running maximum (R168) -/

theorem absCoef_le (w : Word) : absCoef w ≤ 2 ^ 31 := by
  have hlo := w.le_toInt
  have hhi := w.toInt_lt
  simp only [absCoef, s32]
  omega

theorem maxAbsAfter_le {n : Nat} (vs : List Word) (hvs : ∀ v ∈ vs, absCoef v ≤ n) :
    ∀ {m : Nat}, m ≤ n → maxAbsAfter m vs ≤ n := by
  induction vs with
  | nil => intro m hm; exact hm
  | cons v t ih =>
    intro m hm
    rw [List.forall_mem_cons] at hvs
    exact ih hvs.2 (Nat.max_le.2 ⟨hm, hvs.1⟩)

/-! ## The encoder keeps the number of coefficients (R174) -/

theorem encodePlanes_length (favorSpeed : Bool) (n : Nat) :
    ∀ e : EncState, (encodePlanes favorSpeed n e).coefs.length = e.coefs.length := by
  induction n with
  | zero => intro e; rfl
  | succ n ih =>
    intro e
    rw [encodePlanes, ih]
    exact List.length_map _

theorem encodeValues_length (favorSpeed : Bool) (vs : List Word) :
    (encodeValues favorSpeed vs).coefs.length = vs.length := by
  unfold encodeValues
  rw [encodePlanes_length, List.length_map]

theorem encodeInput_length (s : State) (pad : Bool) : (s.encodeInput pad).length = s.encodeSize pad := by
  simp [State.encodeInput, Memory.readWords]

/-! ## Every step (R39, R40) -/

/-- R40: SF lists indices 0 .. MB_CAP, rising. -/
def flagsSound (sf : List Nat) : Prop := sf.Pairwise (· < ·) ∧ ∀ i ∈ sf, i ≤ Config.mbCap

theorem flagsSound_sigIndices {cs : List Coef} (h : cs.length ≤ Config.mbCap) : flagsSound (sigIndices 0 cs) := by
  refine ⟨(indicesRise_zero_iff _).1 (sigIndices_rise cs 0), fun i hi => ?_⟩
  have := sigIndices_le cs 0 i hi
  omega

theorem flagsSound_filter_range (p : Nat → Bool) : flagsSound ((List.range (Config.mbCap + 1)).filter p) := by
  refine ⟨List.pairwise_lt_range.filter p, fun i hi => ?_⟩
  have := List.mem_range.1 (List.mem_of_mem_filter hi)
  omega

theorem macroblockSound_iff (s : State) : s.macroblockSound = true ↔
    s.vpos ≤ Config.mbCap ∧ s.vlim ≤ Config.mbCap ∧ s.maxAbs ≤ 2 ^ 31 ∧ flagsSound s.sf := by
  simp [State.macroblockSound, flagsSound, indicesRise_zero_iff, and_assoc]

theorem macroblockSound_of_sameUnits {s t : State} (h : SameUnits s t) (hs : s.macroblockSound = true) :
    t.macroblockSound = true := by
  rw [macroblockSound_iff] at hs ⊢
  rwa [h.vpos, h.vlim, h.maxAbs, h.sf]

theorem macroblockSound_of_storeOnly {s t : State} (h : StoreOnly s t) (hs : s.macroblockSound = true) :
    t.macroblockSound = true := by
  obtain ⟨bands, used, rfl⟩ := h
  exact hs

theorem macroblockSound_resetEngine (s : State) : (resetEngine s).macroblockSound = true :=
  (macroblockSound_iff _).2 ⟨Nat.zero_le _, Nat.zero_le _, Nat.zero_le _, .nil, nofun⟩

theorem macroblockSound_extractBand (l : Nat) (o : Orient) {s : State} (hs : s.macroblockSound = true) :
    (extractBand l o s).macroblockSound = true := by
  obtain ⟨hpos, -, hmax, hsf⟩ := (macroblockSound_iff s).1 hs
  refine (macroblockSound_iff _).2 ⟨?_, Nat.zero_le _, maxAbsAfter_le _ (fun v _ => absCoef_le v) hmax, hsf⟩
  change s.vpos + min (s.bandSize l o - s.u0) (Config.mbCap - s.vpos) ≤ Config.mbCap
  omega

theorem macroblockSound_placeBand (l : Nat) (o : Orient) {s : State} (hs : s.macroblockSound = true) :
    (placeBand l o s).macroblockSound = true := by
  obtain ⟨hpos, hlim, hmax, hsf⟩ := (macroblockSound_iff s).1 hs
  refine (macroblockSound_iff _).2 ⟨?_, hlim, hmax, hsf⟩
  change s.vpos + min (s.bandSize l o - s.u0) (s.vlim - s.vpos) ≤ Config.mbCap
  omega

theorem macroblockSound_encodeWrites (pad tileEnd : Bool) {s : State} (hs : s.macroblockSound = true) :
    (encodeWrites pad tileEnd (encodeValues s.favorTaken (s.encodeInput pad)) s).macroblockSound = true := by
  obtain ⟨hpos, -, -, -⟩ := (macroblockSound_iff s).1 hs
  have hsize : s.encodeSize pad ≤ Config.mbCap := by
    cases pad
    · exact hpos
    · exact Nat.le_refl _
  refine (macroblockSound_iff _).2 ⟨Nat.zero_le _, Nat.zero_le _, Nat.zero_le _, flagsSound_sigIndices ?_⟩
  rwa [encodeValues_length, encodeInput_length]

theorem macroblockSound_decodeEffect {s : State} (hc : firstFail (checksOf .mbDecode s) = none) :
    (decodeEffect s).macroblockSound = true := by
  rcases decodeEffect_cases s with ⟨field, cs, hd, he⟩ | he <;> rw [he]
  · have hlen : cs.length ≤ Config.mbCap := (decodeValues_length hd).trans_le (decodeSize_le hc)
    exact (macroblockSound_iff _).2 ⟨Nat.zero_le _, hlen, Nat.zero_le _, flagsSound_sigIndices hlen⟩
  · have hsf : flagsSound (decodeAbandon s).sf := by
      simp only [decodeAbandon, flagsSound_filter_range]
    exact (macroblockSound_iff _).2 ⟨Nat.zero_le _, Nat.zero_le _, Nat.zero_le _, hsf⟩

theorem macroblockSound_effectOf (i : Instr) (s : State) (hc : firstFail (checksOf i s) = none)
    (hs : s.macroblockSound = true) : (effectOf i s).macroblockSound = true := by
  obtain ⟨hpos, hlim, hmax, hsf⟩ := (macroblockSound_iff s).1 hs
  have checks := (firstFail_eq_none _).1 hc
  cases i
  case sbExtract l o => exact macroblockSound_extractBand l o hs
  case sbPlace l o => exact macroblockSound_placeBand l o hs
  case wtFwd l => exact macroblockSound_of_storeOnly (forwardStep_storeOnly l s) hs
  case wtInv l => exact macroblockSound_of_storeOnly (inverseStep_storeOnly l s) hs
  case mbClear => exact (macroblockSound_iff _).2 ⟨Nat.zero_le _, Nat.zero_le _, Nat.zero_le _, hsf⟩
  case mbPut =>
    have hroom : s.vpos < Config.mbCap := by simpa [checksOf] using checks
    exact (macroblockSound_iff _).2 ⟨hroom, Nat.zero_le _, Nat.max_le.2 ⟨hmax, absCoef_le _⟩, hsf⟩
  case mbGet =>
    have hleft : s.vpos < s.vlim := by simpa [checksOf] using checks
    exact (macroblockSound_iff _).2 ⟨Nat.lt_of_lt_of_le hleft hlim, hlim, hmax, hsf⟩
  case mbEncode pad tileEnd => exact macroblockSound_encodeWrites pad tileEnd hs
  case mbDecode => exact macroblockSound_decodeEffect hc
  all_goals exact hs

theorem macroblockSound_keptByParts : KeptByParts fun s => s.macroblockSound = true :=
  keptByParts_of_units macroblockSound_of_sameUnits (fun s _ => macroblockSound_resetEngine s) (fun _ _ _ _ hs => hs)
    macroblockSound_effectOf

/-- Settles O8: the commands move VPOS and VLIM within MB_CAP by their own checks and counts, and the coder lists flags of
as many coefficients as the macroblock holds. -/
theorem macroblockSoundKept : Obligations.MacroblockSoundKept := by
  unfold Obligations.MacroblockSoundKept
  intro s s' hs h
  exact macroblockSound_keptByParts.step hs h

end Sys2Proof.Machine
end

section
/-! The sizes of what the transform computes (42_wavelet.md R143 to R149): they depend on the dimensions alone. -/

namespace Sys2Proof.Machine

/-! ## Rows, columns, even and odd positions -/

theorem evens_length {α : Type} (l : List α) : (evens l).length = (l.length + 1) / 2 := by
  induction l using evens.induct with
  | case1 => simp [evens]
  | case2 a => simp [evens]
  | case3 a b t ih =>
    simp only [evens, List.length_cons, ih]
    omega

theorem odds_length {α : Type} (l : List α) : (odds l).length = l.length / 2 := by
  induction l using odds.induct with
  | case1 => simp [odds]
  | case2 a => simp [odds]
  | case3 a b t ih =>
    simp only [odds, List.length_cons, ih]
    omega

theorem mem_of_mem_evens {α : Type} {x : α} (l : List α) (h : x ∈ evens l) : x ∈ l := by
  induction l using evens.induct with
  | case1 => exact h
  | case2 a => exact h
  | case3 a b t ih => grind [evens]

theorem mem_of_mem_odds {α : Type} {x : α} (l : List α) (h : x ∈ odds l) : x ∈ l := by
  induction l using odds.induct with
  | case1 => exact h
  | case2 a => cases h
  | case3 a b t ih => grind [odds]

theorem columnsOf_length (w : Nat) : ∀ rs : List (List Word), (columnsOf w rs).length = w := by
  induction w with
  | zero => intro rs; rfl
  | succ w ih => intro rs; simp [columnsOf, ih]

/-- A column has one entry for every row. -/
theorem length_of_mem_columnsOf (w : Nat) :
    ∀ {rs : List (List Word)} {c : List Word}, c ∈ columnsOf w rs → c.length = rs.length := by
  induction w with
  | zero => intro rs c h; cases h
  | succ w ih =>
    intro rs c h
    rcases List.mem_cons.1 h with rfl | h
    · exact List.length_map _
    · exact (ih h).trans (List.length_map _)

/-- Rows of one length make an array of that length times their number. -/
theorem length_flatten_of_rows {n : Nat} (rows : List (List Word)) (h : ∀ r ∈ rows, r.length = n) :
    rows.flatten.length = n * rows.length := by
  have hsum := List.sum_eq_card_nsmul (rows.map List.length) n (by simpa using h)
  rw [List.length_flatten, hsum, List.length_map, smul_eq_mul, Nat.mul_comm]

/-! ## The inverse filter -/

theorem inverseRest_length (e : Word) (s : List Word) : (inverseRest e s).length = s.length := by
  induction e, s using inverseRest.induct with
  | case1 e => rfl
  | case2 e h => rfl
  | case3 e h l => rfl
  | case4 e h l h' t ih => simp only [inverseRest, List.length_cons, ih]

theorem i1d_length (s : List Word) : (i1d s).length = s.length := by
  unfold i1d
  split
  · rfl
  · split
    · simp only [List.length_cons, inverseRest_length]
    · rfl

/-! ## The two-dimensional transform -/

/-- A filter along the columns and back to rows: `h` rows of the columns' number. -/
theorem columnsOf_columnsOf_lengths (w h : Nat) (filter : List Word → List Word) (rows : List (List Word)) :
    (columnsOf h ((columnsOf w rows).map filter)).length = h ∧
      ∀ r ∈ columnsOf h ((columnsOf w rows).map filter), r.length = w := by
  refine ⟨columnsOf_length h _, fun r hr => ?_⟩
  rw [length_of_mem_columnsOf h hr, List.length_map, columnsOf_length]

/-- The even or odd positions of an array with `h` rows of `w`, along rows and columns. -/
theorem length_flatten_map_evens_odds {w h : Nat} {y : List (List Word)} (hy : y.length = h)
    (hr : ∀ r ∈ y, r.length = w) :
    ((evens y).map evens).flatten.length = (w + 1) / 2 * ((h + 1) / 2) ∧
      ((evens y).map odds).flatten.length = w / 2 * ((h + 1) / 2) ∧
      ((odds y).map evens).flatten.length = (w + 1) / 2 * (h / 2) ∧
      ((odds y).map odds).flatten.length = w / 2 * (h / 2) := by
  have heven : ∀ r ∈ evens y, r.length = w := fun r h => hr r (mem_of_mem_evens y h)
  have hodd : ∀ r ∈ odds y, r.length = w := fun r h => hr r (mem_of_mem_odds y h)
  refine ⟨?_, ?_, ?_, ?_⟩
  · rw [length_flatten_of_rows (n := (w + 1) / 2), List.length_map, evens_length, hy]
    exact List.forall_mem_map.2 fun r h => by rw [evens_length, heven r h]
  · rw [length_flatten_of_rows (n := w / 2), List.length_map, evens_length, hy]
    exact List.forall_mem_map.2 fun r h => by rw [odds_length, heven r h]
  · rw [length_flatten_of_rows (n := (w + 1) / 2), List.length_map, odds_length, hy]
    exact List.forall_mem_map.2 fun r h => by rw [evens_length, hodd r h]
  · rw [length_flatten_of_rows (n := w / 2), List.length_map, odds_length, hy]
    exact List.forall_mem_map.2 fun r h => by rw [odds_length, hodd r h]

/-- R146: FWD2 gives each band its own dimensions. -/
theorem fwd2_get_length (w h : Nat) (x : List Word) (o : Orient) : ((fwd2 w h x).get o).length =
    (if lowAlongRow o then (w + 1) / 2 else w / 2) * (if lowAlongColumn o then (h + 1) / 2 else h / 2) := by
  obtain ⟨hy, hr⟩ := columnsOf_columnsOf_lengths w h f1d ((rowsOf w h x).map f1d)
  obtain ⟨hll, hhl, hlh, hhh⟩ := length_flatten_map_evens_odds hy hr
  cases o
  · exact hll
  · exact hhl
  · exact hlh
  · exact hhh

/-- R149: INV2 gives the whole array. -/
theorem inv2_length (w h : Nat) (q : Quad) : (inv2 w h q).length = w * h := by
  obtain ⟨hlen, hr⟩ := columnsOf_columnsOf_lengths w h i1d (interleaveRows w h q)
  unfold inv2
  rw [length_flatten_of_rows (n := w), List.length_map, hlen]
  exact List.forall_mem_map.2 fun r h => by rw [i1d_length, hr r h]

theorem bandDim_true (d l : Nat) : bandDim d l true = llDim d l := by cases l <;> rfl

theorem fwdBand_length (s : State) (l : Nat) (o : Orient) : (s.fwdBand l o).length = s.bandSize (l + 1) o := by
  have hquad : ((s.fwdQuad l).get o).length = s.bandSize (l + 1) o := by
    rw [State.fwdQuad, fwd2_get_length, State.bw, State.bh, lowAlongRow, lowAlongColumn, bandDim_true, bandDim_true]
    rfl
  unfold State.fwdBand quantBand
  split
  · split
    · exact hquad
    · rw [List.length_map, hquad]
  · exact hquad

theorem invBand_length (s : State) (l : Nat) : (s.invBand l).length = s.bandSize (l - 1) .ll := inv2_length _ _ _

end Sys2Proof.Machine
end

section
/-! The subband store (10_state.md R42; 41_subband.md R110 to R114; 42_wavelet.md R141). -/

namespace Sys2Proof.Machine

/-! ## Bands with rising cells -/

/-- The cells of the listed bands rise. -/
def cellsRise (bs : List (Nat × List Word)) : Prop := bs.Pairwise fun a b => a.1 < b.1

theorem cellsRise_iff (bs : List (Nat × List Word)) : indicesRise 0 (bs.map fun b => b.1) = true ↔ cellsRise bs := by
  rw [indicesRise_zero_iff, List.pairwise_map, cellsRise]

theorem cellsRise_putBand {bs : List (Nat × List Word)} (h : cellsRise bs) (c : Nat) (cs : List Word) :
    cellsRise (putBand bs c cs) := by
  unfold putBand cellsRise
  refine List.pairwise_append.2 ⟨h.filter _, List.pairwise_cons.2 ⟨?_, h.filter _⟩, ?_⟩
  · intro b hb
    simpa using (List.mem_filter.1 hb).2
  · intro a ha b hb
    have hac : a.1 < c := by simpa using (List.mem_filter.1 ha).2
    rcases List.mem_cons.1 hb with rfl | hb
    · exact hac
    · have hcb : c < b.1 := by simpa using (List.mem_filter.1 hb).2
      exact hac.trans hcb

theorem mem_putBand {bs : List (Nat × List Word)} {c : Nat} {cs : List Word} {b : Nat × List Word}
    (h : b ∈ putBand bs c cs) : b = (c, cs) ∨ b ∈ bs := by
  rcases List.mem_append.1 h with h | h
  · exact .inr (List.mem_of_mem_filter h)
  · rcases List.mem_cons.1 h with h | h
    · exact .inl h
    · exact .inr (List.mem_of_mem_filter h)

theorem mem_of_findBand {bs : List (Nat × List Word)} {c : Nat} {cs : List Word} (h : findBand bs c = some cs) :
    (c, cs) ∈ bs := by
  induction bs with
  | nil => cases h
  | cons b t ih =>
    obtain ⟨k, v⟩ := b
    rw [findBand] at h
    split at h
    · next hk =>
      cases h
      exact hk ▸ List.mem_cons_self
    · exact List.mem_cons_of_mem _ (ih h)

@[simp] theorem totalCoefs_cons (b : Nat × List Word) (bs : List (Nat × List Word)) :
    totalCoefs (b :: bs) = b.2.length + totalCoefs bs := rfl

/-- Discarding a band takes its coefficients from the total. -/
theorem totalCoefs_dropBand {bs : List (Nat × List Word)} (h : cellsRise bs) (c : Nat) :
    totalCoefs (dropBand bs c) + ((findBand bs c).getD []).length = totalCoefs bs := by
  induction bs with
  | nil => rfl
  | cons b t ih =>
    obtain ⟨k, v⟩ := b
    obtain ⟨hk, ht⟩ := List.pairwise_cons.1 h
    by_cases hkc : k = c
    · have hdrop : dropBand t c = t :=
        List.filter_eq_self.2 fun b hb => by
          have := hk b hb
          simp only [ne_eq, decide_eq_true_eq]
          omega
      have hcons : dropBand ((k, v) :: t) c = t := by rw [← hdrop]; simp [dropBand, hkc]
      rw [hcons, findBand, if_pos hkc, totalCoefs_cons, Nat.add_comm]
      rfl
    · have hcons : dropBand ((k, v) :: t) c = (k, v) :: dropBand t c := by simp [dropBand, hkc]
      rw [hcons, findBand, if_neg hkc, totalCoefs_cons, totalCoefs_cons, Nat.add_assoc, ih ht]

/-- Storing a band puts its coefficients in the place of the ones it had. -/
theorem totalCoefs_putBand (bs : List (Nat × List Word)) (c : Nat) (cs : List Word) :
    totalCoefs (putBand bs c cs) = totalCoefs (dropBand bs c) + cs.length := by
  have hparts : totalCoefs (bs.filter fun b => decide (b.1 < c)) + totalCoefs (bs.filter fun b => decide (c < b.1)) =
      totalCoefs (dropBand bs c) := by
    induction bs with
    | nil => rfl
    | cons b t ih =>
      rw [dropBand] at ih ⊢
      rcases Nat.lt_trichotomy b.1 c with h | h | h
      · have hn := Nat.lt_asymm h
        simp only [List.filter_cons, h, hn, h.ne, decide_true, decide_false, ne_eq, not_false_eq_true, if_true,
          Bool.false_eq_true, if_false, totalCoefs_cons, ← ih, Nat.add_assoc]
      · simp [h, ih]
      · have hn := Nat.lt_asymm h
        simp only [List.filter_cons, h, hn, h.ne', decide_true, decide_false, ne_eq, not_false_eq_true, if_true,
          Bool.false_eq_true, if_false, totalCoefs_cons, ← ih, Nat.add_left_comm]
  rw [← hparts, putBand]
  simp only [totalCoefs, List.map_append, List.sum_append, List.map_cons, List.sum_cons]
  omega

/-! ## Bands of the pyramid -/

/-- R110: `(l, o)` is a band of the pyramid. `bandChecks_hold` says when the shared checks find this. -/
def State.InPyramid (s : State) (l : Nat) (o : Orient) : Prop := s.geom = true ∧ l ≤ s.levels ∧ (l = 0 → o = .ll)

theorem bandSound_bandCell (s : State) (l : Nat) (o : Orient) (cs : List Word) :
    s.bandSound (bandCell l o, cs) = true ↔ (l ≤ s.levels ∧ (l = 0 → o = .ll)) ∧ cs.length = s.bandSize l o := by
  have hl : bandCell l o / 4 = l := by cases o <;> simp only [bandCell, Orient.code] <;> omega
  have hm : bandCell l o % 4 = o.code := by cases o <;> simp only [bandCell, Orient.code] <;> omega
  have ho : cellOrient (bandCell l o) = o := by rw [cellOrient, hm]; cases o <;> rfl
  have hll : o.code = 0 ↔ o = .ll := by cases o <;> simp [Orient.code]
  simp only [State.bandSound, hl, hm, ho, hll, Bool.and_eq_true, Bool.or_eq_true, decide_eq_true_eq]
  tauto

theorem storeSound_iff (s : State) : s.storeSound = true ↔
    s.geometrySound = true ∧ cellsRise s.bands ∧ (∀ b ∈ s.bands, s.bandSound b = true) ∧
      s.used = totalCoefs s.bands ∧ s.used ≤ s.capBand := by
  simp only [State.storeSound, Bool.and_eq_true, decide_eq_true_eq, cellsRise_iff, List.all_eq_true, and_assoc]

/-- R141: an initialised geometry is sound when WT_INIT would accept it; the bands have no part in it. -/
theorem geometrySound_iff_of_geom {s : State} (hg : s.geom = true) : s.geometrySound = true ↔
    1 ≤ u32 s.geomW ∧ 1 ≤ u32 s.geomH ∧ u32 s.geomW * u32 s.geomH < 2 ^ 32 ∧ s.levels ≤ Config.maxLevel := by
  unfold State.geometrySound
  rw [if_pos hg]
  simp only [Bool.and_eq_true, decide_eq_true_eq, and_assoc]

theorem geometrySound_set_bands {s : State} (hg : s.geom = true) (h : s.geometrySound = true)
    (bands : List (Nat × List Word)) (used : Nat) : { s with bands := bands, used := used }.geometrySound = true :=
  (geometrySound_iff_of_geom (s := { s with bands := bands, used := used }) hg).2 ((geometrySound_iff_of_geom hg).1 h)

/-- R113: an allocated band holds bw*bh coefficients. -/
theorem coefs_length {s : State} (hs : s.storeSound = true) {l : Nat} {o : Orient} (ha : s.alloc l o = true) :
    (s.coefs l o).length = s.bandSize l o := by
  obtain ⟨-, -, hbands, -, -⟩ := (storeSound_iff s).1 hs
  obtain ⟨cs, hcs⟩ := Option.isSome_iff_exists.1 ha
  have hsound := (bandSound_bandCell s l o cs).1 (hbands _ (mem_of_findBand hcs))
  rw [State.coefs, hcs]
  exact hsound.2

theorem coefs_eq_nil {s : State} {l : Nat} {o : Orient} (ha : s.alloc l o = false) : s.coefs l o = [] := by
  rw [State.alloc, Option.isSome_eq_false_iff, Option.isNone_iff_eq_none] at ha
  rw [State.coefs, ha]
  rfl

/-! ## Storing and freeing a band (R112 to R114) -/

theorem used_storeBand (l : Nat) (o : Orient) (cs : List Word) (s : State) :
    (storeBand l o cs s).used = s.used + s.needFor l o := by
  rw [storeBand_used, State.needFor]
  split <;> rfl

theorem needFor_storeBand_of_ne {l l' : Nat} {o o' : Orient} (h : o' ≠ o) (cs : List Word) (s : State) :
    (storeBand l o cs s).needFor l' o' = s.needFor l' o' := by
  simp [State.needFor, alloc_storeBand, h]

theorem needFor_of_alloc {s : State} {l : Nat} {o : Orient} (ha : s.alloc l o = true) : s.needFor l o = 0 :=
  if_pos ha

theorem used_le_capBand {s : State} (hs : s.storeSound = true) : s.used ≤ s.capBand := by
  obtain ⟨-, -, -, -, hcap⟩ := (storeSound_iff s).1 hs
  exact hcap

/-- What the total of the other bands and the band's own need make. -/
theorem totalCoefs_dropBand_bandCell {s : State} (hs : s.storeSound = true) (l : Nat) (o : Orient) :
    totalCoefs (dropBand s.bands (bandCell l o)) + s.bandSize l o = s.used + s.needFor l o := by
  obtain ⟨-, hrise, -, hused, -⟩ := (storeSound_iff s).1 hs
  have hdrop : totalCoefs (dropBand s.bands (bandCell l o)) + (s.coefs l o).length = totalCoefs s.bands :=
    totalCoefs_dropBand hrise (bandCell l o)
  cases ha : s.alloc l o with
  | true =>
    rw [coefs_length hs ha] at hdrop
    rw [hdrop, hused, needFor_of_alloc ha, Nat.add_zero]
  | false =>
    have hneed : s.needFor l o = s.bandSize l o := by rw [State.needFor, ha]; rfl
    rw [coefs_eq_nil ha] at hdrop
    rw [hneed, hused, ← hdrop]
    rfl

/-- Storing a whole band of the pyramid for which there is room keeps the store sound. -/
theorem storeSound_storeBand {s : State} (hs : s.storeSound = true) {l : Nat} {o : Orient} (hb : s.InPyramid l o)
    {cs : List Word} (hlen : cs.length = s.bandSize l o) (hroom : s.used + s.needFor l o ≤ s.capBand) :
    (storeBand l o cs s).storeSound = true := by
  obtain ⟨hgeom, hrise, hbands, -, -⟩ := (storeSound_iff s).1 hs
  obtain ⟨hg, hin⟩ := hb
  refine (storeSound_iff _).2 ⟨geometrySound_set_bands hg hgeom _ _, cellsRise_putBand hrise _ _, ?_, ?_, ?_⟩
  · intro b hb
    rcases mem_putBand hb with rfl | hb
    · exact (bandSound_bandCell s l o cs).2 ⟨hin, hlen⟩
    · exact hbands b hb
  · rw [used_storeBand, storeBand_bands, totalCoefs_putBand, hlen, totalCoefs_dropBand_bandCell hs]
  · rwa [used_storeBand]

/-- Freeing a band keeps the store sound. -/
theorem storeSound_freeBand {s : State} (hs : s.storeSound = true) (hg : s.geom = true) (l : Nat) (o : Orient) :
    (freeBand l o s).storeSound = true := by
  obtain ⟨hgeom, hrise, hbands, hused, hcap⟩ := (storeSound_iff s).1 hs
  have htotal := totalCoefs_dropBand_bandCell hs l o
  have hfree : (freeBand l o s).used = totalCoefs (dropBand s.bands (bandCell l o)) := by
    rw [freeBand_used]
    cases ha : s.alloc l o with
    | true =>
      rw [needFor_of_alloc ha] at htotal
      simp only [if_true]
      omega
    | false =>
      rw [State.needFor, ha] at htotal
      simpa using htotal.symm
  refine (storeSound_iff _).2 ⟨geometrySound_set_bands hg hgeom _ _, hrise.filter _, ?_, hfree, ?_⟩
  · exact fun b hb => hbands b (List.mem_of_mem_filter hb)
  · rw [freeBand_used]
    split
    · exact (Nat.sub_le _ _).trans hcap
    · exact hcap

/-! ## The checks, as propositions -/

theorem room_of_checkRoomFor {s : State} (hs : s.storeSound = true) {l : Nat} {o : Orient}
    (h : (checkRoomFor s l o).ok = true) : s.used + s.needFor l o ≤ s.capBand := by
  have hcap := used_le_capBand hs
  simp only [checkRoomFor, checkRoom, Bool.or_eq_true, decide_eq_true_eq] at h
  rcases h with ha | hroom
  · rwa [needFor_of_alloc ha]
  · unfold State.needFor
    split <;> omega

/-- Storing an allocated band of the pyramid again needs no room. -/
theorem storeSound_storeBand_of_alloc {s : State} (hs : s.storeSound = true) {l : Nat} {o : Orient}
    (hb : s.InPyramid l o) (ha : s.alloc l o = true) {cs : List Word} (hlen : cs.length = (s.coefs l o).length) :
    (storeBand l o cs s).storeSound = true := by
  refine storeSound_storeBand hs hb (hlen.trans (coefs_length hs ha)) ?_
  rw [needFor_of_alloc ha]
  exact used_le_capBand hs

/-- The checks of an SB command name a band of the pyramid; the checks that follow hold too. -/
theorem inPyramid_of_checks {s : State} {l : Nat} {o : Orient} {rest : List Check}
    (h : firstFail (bandChecks s l o ++ rest) = none) : s.InPyramid l o ∧ ∀ c ∈ rest, c.ok = true := by
  rw [firstFail_eq_none, List.forall_mem_append] at h
  exact ⟨(bandChecks_hold s l o).1 h.1, h.2⟩

theorem quantBand_length (q l : Nat) (o : Orient) (cs : List Word) : (quantBand q l o cs).length = cs.length := by
  unfold quantBand
  split
  · rfl
  · exact List.length_map _

theorem dequantBand_length (q l : Nat) (o : Orient) (cs : List Word) : (dequantBand q l o cs).length = cs.length := by
  unfold dequantBand
  split
  · rfl
  · exact List.length_map _

/-! ## The effects of the commands -/

theorem placed_length {s : State} (hs : s.storeSound = true) (l : Nat) (o : Orient) :
    (s.placed l o).length = s.bandSize l o := by
  have hbase : (s.placeBase l o).length = s.bandSize l o := by
    unfold State.placeBase
    split
    · next ha => exact coefs_length hs ha
    · exact List.length_replicate
  have hset : ∀ (ivs : List (Nat × Word)) (cs : List Word),
      (ivs.foldl (fun cs iv => cs.set iv.1 (dequantCoef (s.placeParam l o) iv.2)) cs).length = cs.length := by
    intro ivs
    induction ivs with
    | nil => intro cs; rfl
    | cons iv t ih => intro cs; rw [List.foldl_cons, ih, List.length_set]
  rw [State.placed, hset, hbase]

/-- Storing several bands of one level for which there is room keeps the store sound. -/
theorem storeSound_foldl_storeBand (l : Nat) (content : Orient → List Word) (os : List Orient) :
    ∀ {s : State}, s.storeSound = true → os.Nodup → (∀ o ∈ os, s.InPyramid l o) →
      (∀ o ∈ os, (content o).length = s.bandSize l o) → s.used + (os.map (s.needFor l)).sum ≤ s.capBand →
      (os.foldl (fun t o => storeBand l o (content o) t) s).storeSound = true := by
  induction os with
  | nil => intro s hs _ _ _ _; exact hs
  | cons o os ih =>
    intro s hs hnodup hin hlen hroom
    obtain ⟨hnew, hnodup⟩ := List.nodup_cons.1 hnodup
    rw [List.forall_mem_cons] at hin hlen
    rw [List.map_cons, List.sum_cons] at hroom
    have hneed : os.map ((storeBand l o (content o) s).needFor l) = os.map (s.needFor l) :=
      List.map_congr_left fun o' ho' => needFor_storeBand_of_ne (ne_of_mem_of_not_mem ho' hnew) _ s
    refine ih (storeSound_storeBand hs hin.1 hlen.1 (by omega)) hnodup hin.2 hlen.2 ?_
    rw [hneed, used_storeBand, storeBand_capBand]
    omega

theorem storeSound_foldl_freeBand (l : Nat) (os : List Orient) :
    ∀ {s : State}, s.storeSound = true → s.geom = true →
      (os.foldl (fun t o => freeBand l o t) s).storeSound = true := by
  induction os with
  | nil => intro s hs _; exact hs
  | cons o os ih => intro s hs hg; exact ih (storeSound_freeBand hs hg l o) hg

theorem forwardStep_eq_foldl (l : Nat) (s : State) : forwardStep l s =
    freeBand l .ll (orients.foldl (fun t o => storeBand (l + 1) o (s.fwdBand l o) t) s) := rfl

theorem inverseStep_eq_foldl (l : Nat) (s : State) : inverseStep l s =
    orients.foldl (fun t o => freeBand l o t) (storeBand (l - 1) .ll (s.invBand l) s) := rfl

theorem fwdNeed_eq_sum (s : State) (l : Nat) : s.fwdNeed l = (orients.map (s.needFor (l + 1))).sum := by
  simp [State.fwdNeed, orients, Nat.add_assoc]

theorem foldl_storeBand_geom (l : Nat) (content : Orient → List Word) (os : List Orient) :
    ∀ s : State, (os.foldl (fun t o => storeBand l o (content o) t) s).geom = s.geom := by
  induction os with
  | nil => intro s; rfl
  | cons o os ih => intro s; exact ih _

/-- R150: WT_FWD has room for its four destination bands, and frees its source. -/
theorem storeSound_forwardStep {s : State} (hs : s.storeSound = true) {l : Nat} (hg : s.geom = true)
    (hl : l < s.levels) (hroom : s.used + s.fwdNeed l ≤ s.capBand) : (forwardStep l s).storeSound = true := by
  have hstored := storeSound_foldl_storeBand (l + 1) (s.fwdBand l) orients hs (by decide)
    (fun o _ => ⟨hg, hl, nofun⟩) (fun o _ => fwdBand_length s l o) (fwdNeed_eq_sum s l ▸ hroom)
  rw [forwardStep_eq_foldl]
  exact storeSound_freeBand hstored ((foldl_storeBand_geom _ _ _ s).trans hg) l .ll

/-- R153: WT_INV has room for its destination band, and frees its four sources. -/
theorem storeSound_inverseStep {s : State} (hs : s.storeSound = true) {l : Nat} (hb : s.InPyramid (l - 1) .ll)
    (hroom : s.used + s.needFor (l - 1) .ll ≤ s.capBand) : (inverseStep l s).storeSound = true := by
  have hstored := storeSound_storeBand hs hb (invBand_length s l) hroom
  obtain ⟨hg, -⟩ := hb
  rw [inverseStep_eq_foldl]
  exact storeSound_foldl_freeBand l orients hstored hg

/-- R141: WT_INIT records a geometry that its checks accept, and no band. -/
theorem storeSound_wtInit {s : State} (hc : firstFail (checksOf .wtInit s) = none) :
    (effectOf .wtInit s).storeSound = true := by
  have checks := (firstFail_eq_none _).1 hc
  simp only [checksOf, List.forall_mem_cons, decide_eq_true_eq] at checks
  obtain ⟨hw, hh, harea, hlevels, -⟩ := checks
  have hfits : (BitVec.ofNat 5 s.u2).toNat = s.u2 := by
    have hmax : Config.maxLevel = 30 := rfl
    rw [BitVec.toNat_ofNat]
    omega
  have hgeom : (effectOf .wtInit s).geometrySound = true := by
    have hlevels' : (effectOf .wtInit s).levels ≤ Config.maxLevel := hfits.trans_le hlevels
    exact (geometrySound_iff_of_geom rfl).2 ⟨hw, hh, harea, hlevels'⟩
  exact (storeSound_iff _).2 ⟨hgeom, .nil, nofun, rfl, Nat.zero_le _⟩

theorem storeSound_effectOf (i : Instr) (s : State) (hc : firstFail (checksOf i s) = none)
    (hs : s.storeSound = true) : (effectOf i s).storeSound = true := by
  cases i
  case sbAlloc l o =>
    obtain ⟨hin, hrest⟩ := inPyramid_of_checks hc
    have hroom := room_of_checkRoomFor hs (hrest (checkRoomFor s l o) (by simp))
    exact storeSound_storeBand hs hin List.length_replicate hroom
  case sbFree l o =>
    obtain ⟨hg, -⟩ := (bandChecks_hold s l o).1 ((firstFail_eq_none _).1 hc)
    exact storeSound_freeBand hs hg l o
  case sbWr l o =>
    obtain ⟨hin, hrest⟩ := inPyramid_of_checks hc
    exact storeSound_storeBand_of_alloc hs hin (hrest (checkAlloc s l o) (by simp)) List.length_set
  case sbQuant l o =>
    obtain ⟨hin, hrest⟩ := inPyramid_of_checks hc
    exact storeSound_storeBand_of_alloc hs hin (hrest (checkAlloc s l o) (by simp)) (quantBand_length _ _ _ _)
  case sbDequant l o =>
    obtain ⟨hin, hrest⟩ := inPyramid_of_checks hc
    exact storeSound_storeBand_of_alloc hs hin (hrest (checkAlloc s l o) (by simp)) (dequantBand_length _ _ _ _)
  case sbPlace l o =>
    obtain ⟨hin, hrest⟩ := inPyramid_of_checks hc
    have hroom := room_of_checkRoomFor hs (hrest (checkRoomFor s l o) (by simp))
    have hstored := storeSound_storeBand hs hin (placed_length hs l o) hroom
    exact hstored
  case wtInit => exact storeSound_wtInit hc
  case wtFwd l =>
    have checks := (firstFail_eq_none _).1 hc
    simp only [checksOf, List.forall_mem_cons, checkGeom, checkRoom, decide_eq_true_eq] at checks
    obtain ⟨hg, hl, -, -, hroom, -⟩ := checks
    exact storeSound_forwardStep hs hg hl hroom
  case wtInv l =>
    have checks := (firstFail_eq_none _).1 hc
    simp only [checksOf, List.forall_mem_cons, checkGeom, Bool.and_eq_true, decide_eq_true_eq] at checks
    obtain ⟨hg, ⟨-, hl⟩, -, -, -, -, hroom, -⟩ := checks
    exact storeSound_inverseStep hs ⟨hg, by omega, fun _ => rfl⟩ (room_of_checkRoomFor hs hroom)
  case mbDecode =>
    rcases decodeEffect_cases s with ⟨field, cs, -, he⟩ | he <;> (rw [effectOf, he]; exact hs)
  all_goals exact hs

/-! ## Every step (R42) -/

theorem storeSound_of_sameUnits {s t : State} (h : SameUnits s t) (hs : s.storeSound = true) : t.storeSound = true := by
  have hband : t.bandSound = s.bandSound := by
    funext b
    unfold State.bandSound State.levels State.bandSize State.bw State.bh
    rw [h.geomL, h.geomW, h.geomH]
  have hgeometry : t.geometrySound = s.geometrySound := by
    unfold State.geometrySound State.levels
    rw [h.geom, h.geomW, h.geomH, h.geomL, h.bands]
  rw [storeSound_iff] at hs ⊢
  rwa [hgeometry, hband, h.bands, h.used, h.capBand]

theorem storeSound_resetEngine (s : State) : (resetEngine s).storeSound = true :=
  (storeSound_iff _).2 ⟨rfl, .nil, nofun, rfl, Nat.zero_le _⟩

theorem storeSound_keptByParts : KeptByParts fun s => s.storeSound = true :=
  keptByParts_of_units storeSound_of_sameUnits (fun s _ => storeSound_resetEngine s) (fun _ _ _ _ hs => hs)
    storeSound_effectOf

/-- Settles O9: a command stores whole bands of the pyramid for which its checks found room, and frees whole bands. -/
theorem storeSoundKept : Obligations.StoreSoundKept := by
  unfold Obligations.StoreSoundKept
  intro s s' hs h
  exact storeSound_keptByParts.step hs h

end Sys2Proof.Machine
end

section
/-! Register accesses by the register's offset (10_state.md R21 to R37, R48), and the bits of the packed words. -/

namespace Sys2Proof.Machine

/-! ## Accesses by offset -/

theorem hostWrite_reg (r : Reg) (v : Word) (s : State) : hostWrite 4 (offsetOf r) v s = .next (writeReg v s r) :=
  busEvent_regWrite r v s

theorem hostRead_reg (r : Reg) (s : State) : hostRead 4 (offsetOf r) s =
    .next (deliverFree (openBits s (busyUnspecified r)) (readReg s r) s) :=
  busEvent_regRead r s

theorem openBits_of_idle {s : State} (hb : s.busy = false) (mask : Word) : openBits s mask = 0#32 := by
  rw [openBits, hb]
  rfl

theorem deliverFree_zero (v : Word) (s : State) : deliverFree 0#32 v s = { s with busData := v } := if_pos rfl

/-- R59: while BUSY = 0 a read returns the register. -/
theorem hostRead_reg_of_idle {s : State} (hb : s.busy = false) (r : Reg) :
    hostRead 4 (offsetOf r) s = .next { s with busData := readReg s r } := by
  rw [hostRead_reg, openBits_of_idle hb, deliverFree_zero]

/-- R60: a register of its first list reads its value, BUSY or not. -/
theorem hostRead_reg_of_specified {r : Reg} (hr : busyUnspecified r = 0#32) (s : State) :
    hostRead 4 (offsetOf r) s = .next { s with busData := readReg s r } := by
  have hopen : openBits s (busyUnspecified r) = 0#32 := by rw [openBits, hr, ite_self]
  rw [hostRead_reg, hopen, deliverFree_zero]

theorem writeIfIdle_of_idle {f : State → State} {s : State} (hb : s.busy = false) : writeIfIdle f s = f s := by
  rw [writeIfIdle, hb]
  rfl

/-- R21: the registers whose writes have no effect. -/
def readOnlyRegs : List Reg :=
  [.id, .errcode, .errcmd, .errarg, .result0, .result1, .result2, .mbpos, .nplanes, .maxabs, .geomW, .geomH, .geomL,
   .bandused, .capMb, .capCb, .capBand]

theorem writeReg_readOnly (v : Word) (s : State) : ∀ r ∈ readOnlyRegs, writeReg v s r = s := by
  simp [readOnlyRegs, writeReg]

/-- R48: the offsets above the last register name none. -/
theorem targetAt_hole {a : Nat} (hlo : 0x064 ≤ a) (hhi : a < 0x01000) : targetAt a = .hole := by
  have hnone : regAt a = none := by
    unfold regAt
    split
    all_goals first
      | omega
      | rfl
  rw [targetAt, if_pos hhi, hnone]

/-! ## Words packed from bits -/

/-- The number whose bits from 0 up are the listed ones. -/
def bitsNat : List Bool → Nat
  | [] => 0
  | b :: t => b.toNat + 2 * bitsNat t

theorem testBit_bitsNat (bs : List Bool) : ∀ j, (bitsNat bs).testBit j = bs.getD j false := by
  induction bs with
  | nil => intro j; simp [bitsNat]
  | cons b t ih =>
    intro j
    have hb := b.toNat_le
    cases j with
    | zero => cases b <;> simp [bitsNat, Nat.testBit_zero]
    | succ j =>
      have hhalf : (b.toNat + 2 * bitsNat t) / 2 = bitsNat t := by omega
      rw [bitsNat, Nat.testBit_succ, hhalf, ih, List.getD_cons_succ]

theorem getLsbD_reg32_bitsNat {bs : List Bool} (h : bs.length ≤ 32) (j : Nat) :
    (reg32 (bitsNat bs)).getLsbD j = bs.getD j false := by
  rw [reg32, BitVec.getLsbD_ofNat, testBit_bitsNat]
  by_cases hj : j < 32
  · simp [hj]
  · have hlen : bs.length ≤ j := by omega
    simp [hj, hlen]

/-- R24: the bits of the STATUS word, from bit 0 up. -/
def State.statusBits (s : State) : List Bool :=
  [s.busy, s.done, s.err, s.haz, s.mbFull, s.mbEmpty, s.geom, s.irq]

theorem getLsbD_statusWord (s : State) (j : Nat) : s.statusWord.getLsbD j = s.statusBits.getD j false := by
  have hpack : s.statusWord = reg32 (bitsNat s.statusBits) :=
    congrArg reg32 (by simp only [State.statusBits, bitsNat]; omega)
  rw [hpack]
  exact getLsbD_reg32_bitsNat (by simp [State.statusBits]) j

theorem getLsbD_ctrlWord (s : State) (j : Nat) :
    s.ctrlWord.getLsbD j = [s.ieDone, s.ieErr, s.favorSpeed].getD j false := by
  have hpack : s.ctrlWord = reg32 (bitsNat [s.ieDone, s.ieErr, s.favorSpeed]) :=
    congrArg reg32 (by simp only [bitsNat]; omega)
  rw [hpack]
  exact getLsbD_reg32_bitsNat (by simp) j

/-- R60: a bit outside the mask is delivered as it is. -/
theorem getLsbD_deliverFree {mask : Word} {j : Nat} (hj : mask.getLsbD j = false) (v : Word) (s : State) :
    (deliverFree mask v s).busData.getLsbD j = v.getLsbD j := by
  unfold deliverFree
  split
  · rfl
  · by_cases h : j < 32
    · simp only [BitVec.getLsbD_or, BitVec.getLsbD_and, BitVec.getLsbD_not, hj, h, decide_true, Bool.not_false,
        Bool.and_true, Bool.and_false, Bool.or_false]
    · rw [BitVec.getLsbD_of_ge _ j (by omega), BitVec.getLsbD_of_ge v j (by omega)]

theorem getLsbD_openBits {s : State} {mask : Word} {j : Nat} (hj : mask.getLsbD j = false) :
    (openBits s mask).getLsbD j = false := by
  unfold openBits
  split
  · exact hj
  · exact BitVec.getLsbD_zero

/-- R60: only bits 4 and 5 of STATUS are unspecified, while BUSY = 1. -/
theorem getLsbD_busyUnspecified_status {j : Nat} (h4 : j ≠ 4) (h5 : j ≠ 5) :
    (busyUnspecified .status).getLsbD j = false := by
  have hmask : busyUnspecified .status = reg32 (bitsNat [false, false, false, false, true, true]) := rfl
  rw [hmask, getLsbD_reg32_bitsNat (by decide)]
  match j with
  | 0 | 1 | 2 | 3 => rfl
  | 4 => exact absurd rfl h4
  | 5 => exact absurd rfl h5
  | j + 6 => simp

/-- What a read of STATUS delivers at the bits that R60 specifies. -/
theorem getLsbD_read_status (s : State) {j : Nat} (h : j ≠ 4 ∧ j ≠ 5 ∨ s.busy = false) :
    (deliverFree (openBits s (busyUnspecified .status)) s.statusWord s).busData.getLsbD j =
      s.statusBits.getD j false := by
  rw [getLsbD_deliverFree, getLsbD_statusWord]
  rcases h with ⟨h4, h5⟩ | hb
  · exact getLsbD_openBits (getLsbD_busyUnspecified_status h4 h5)
  · rw [openBits_of_idle hb, BitVec.getLsbD_zero]

end Sys2Proof.Machine
end

section
/-! The registers: constants, reset values, reads and writes (10_state.md R21 to R37, R47; 60_exceptions.md R227, R233). -/

namespace Sys2Proof.Machine

theorem capBand_keptByParts (cap : Nat) : KeptByParts fun s => s.capBand = cap :=
  keptByParts_of_units (fun h hs => h.capBand.trans hs) (fun _ hs => hs) (fun _ _ _ _ hs => hs)
    fun i s _ hs => (effectOf_keptByEffect i s).capBand.trans hs

/-- Settles O13: the capacity registers are in R60's first list and read-only, and no part of a step writes
BAND_MEM_WORDS. -/
theorem capacityConstants : Obligations.CapacityConstants := by
  unfold Obligations.CapacityConstants
  refine ⟨fun s => ⟨?_, ?_, ?_, fun v => ⟨?_, ?_, ?_⟩⟩, fun s s' h => (capBand_keptByParts s.capBand).step rfl h⟩
  · exact hostRead_reg_of_specified (r := .capMb) rfl s
  · exact hostRead_reg_of_specified (r := .capCb) rfl s
  · exact hostRead_reg_of_specified (r := .capBand) rfl s
  · exact hostWrite_reg .capMb v s
  · exact hostWrite_reg .capCb v s
  · exact hostWrite_reg .capBand v s

/-- Settles O26: the read of STATUS delivers the word's bits, but for bits 4 and 5 while BUSY = 1. -/
theorem statusRead : Obligations.StatusRead := by
  unfold Obligations.StatusRead
  intro s
  refine ⟨_, hostRead_reg .status s, ?_, ?_, ?_, ?_, ?_, ?_, fun hb => ⟨?_, ?_⟩, fun j hj => ?_⟩
  · exact getLsbD_read_status s (.inl (by decide))
  · exact getLsbD_read_status s (.inl (by decide))
  · exact getLsbD_read_status s (.inl (by decide))
  · exact getLsbD_read_status s (.inl (by decide))
  · exact getLsbD_read_status s (.inl (by decide))
  · exact getLsbD_read_status s (.inl (by decide))
  · exact getLsbD_read_status s (.inr hb)
  · exact getLsbD_read_status s (.inr hb)
  · refine (getLsbD_read_status s (.inl (by omega))).trans ?_
    simp [State.statusBits, hj]

/-! ## CTRL (R23) -/

theorem writeCtrl_of_idle {v : Word} {s : State} (hv : v.getLsbD 3 = false) (hb : s.busy = false) :
    writeCtrl v s = takeCtrl (setCtrl v s) := by
  rw [writeCtrl, hv, hb]
  rfl

theorem writeCtrl_of_busy {v : Word} {s : State} (hv : v.getLsbD 3 = false) (hb : s.busy = true) :
    writeCtrl v s = setCtrl v s := by
  rw [writeCtrl, hv, hb]
  rfl

theorem writeCmd_of_idle {s : State} (hb : s.busy = false) (he : s.err = false) (v : Word) :
    writeCmd v s = acceptCmd v s := by
  simp [writeCmd, hb, he]

theorem writeCmd_of_refused {s : State} (h : s.busy = true ∨ s.err = true) (v : Word) : writeCmd v s = hazard s := by
  rw [writeCmd, if_pos (by simpa using h)]

section

variable (v : Word) (s : State)

theorem storeBand_setCtrl (l : Nat) (o : Orient) (cs : List Word) :
    storeBand l o cs (setCtrl v s) = setCtrl v (storeBand l o cs s) := rfl

theorem freeBand_setCtrl (l : Nat) (o : Orient) : freeBand l o (setCtrl v s) = setCtrl v (freeBand l o s) := rfl

theorem decodeEffect_setCtrl : decodeEffect (setCtrl v s) = setCtrl v (decodeEffect s) := by
  have hpayload : (setCtrl v s).payload = s.payload := rfl
  have hsize : (setCtrl v s).decodeSize = s.decodeSize := rfl
  unfold decodeEffect
  rw [hpayload, hsize]
  cases decodeValues s.payload s.decodeSize with
  | ok r => rfl
  | error e => simp only [decodeAbandon, setCtrl]

/-- No command reads the enables of CTRL. -/
theorem effectOf_setCtrl (i : Instr) : effectOf i (setCtrl v s) = setCtrl v (effectOf i s) := by
  cases i
  case wtFwd l =>
    have hband : (setCtrl v s).fwdBand l = s.fwdBand l := rfl
    simp only [effectOf, forwardStep, hband, storeBand_setCtrl, freeBand_setCtrl]
  case wtInv l =>
    have hband : (setCtrl v s).invBand l = s.invBand l := rfl
    simp only [effectOf, inverseStep, hband, storeBand_setCtrl, freeBand_setCtrl]
  case mbDecode => exact decodeEffect_setCtrl v s
  all_goals rfl

theorem commandResult_setCtrl (i : Instr) : commandResult i (setCtrl v s) = setCtrl v (commandResult i s) := by
  have hchecks : checksOf i (setCtrl v s) = checksOf i s := by cases i <;> rfl
  have hlate : lateError i (setCtrl v s) = lateError i s := by cases i <;> rfl
  unfold commandResult
  rw [hchecks, hlate, effectOf_setCtrl]
  cases firstFail (checksOf i s) with
  | some e => rfl
  | none => cases lateError i s <;> rfl

/-- R23: the command in progress does what it would have done without the CTRL write. -/
theorem engineStep_setCtrl {u : State} (h : engineStep s = .next u) :
    engineStep (setCtrl v s) = .next (setCtrl v u) := by
  rw [engineStep_eq, Host.Outcome.next.injEq] at h
  rw [engineStep_eq, setCtrl_cmd, ← h]
  cases decode s.cmd with
  | ok i => exact congrArg _ (commandResult_setCtrl v s i)
  | error e => rfl

end

/-- Settles O24: a CTRL write only sets the enables, which no command reads; `takeCtrl` copies them at the write while
BUSY = 0 and at the acceptance of a command. -/
theorem ctrlWrite : Obligations.CtrlWrite := by
  unfold Obligations.CtrlWrite
  refine ⟨fun s v hv hb => ?_, fun s v hv hb => ?_, fun s v hb he => ?_, fun s => ?_⟩
  · have hw := (hostWrite_reg .ctrl v s).trans (congrArg _ (writeCtrl_of_idle hv hb))
    exact ⟨_, hw, rfl, rfl⟩
  · have hw := (hostWrite_reg .ctrl v s).trans (congrArg _ (writeCtrl_of_busy hv hb))
    exact ⟨_, hw, rfl, rfl, fun u hu => engineStep_setCtrl v s hu⟩
  · have hw := (hostWrite_reg .cmd v s).trans (congrArg _ (writeCmd_of_idle hb he v))
    exact ⟨_, hw, rfl, rfl, rfl⟩
  · refine ⟨_, hostRead_reg_of_specified (r := .ctrl) rfl s, ?_, ?_, ?_, fun j hj => ?_⟩
    · exact getLsbD_ctrlWord s 0
    · exact getLsbD_ctrlWord s 1
    · exact getLsbD_ctrlWord s 2
    · refine (getLsbD_ctrlWord s j).trans ?_
      simp [hj]

/-! ## Reset (R47) -/

/-- Settles O10: with everything at its reset value, each invariant holds of zeros and empty lists. -/
theorem resetStateSound : Obligations.ResetStateSound := by
  unfold Obligations.ResetStateSound
  intro cap
  exact ⟨controlSound_resetEngine (State.resetWith cap), memoriesSound_resetEngine (State.resetWith cap),
    macroblockSound_resetEngine (State.resetWith cap), storeSound_resetEngine (State.resetWith cap)⟩

theorem readWord_nil (i : Nat) : Memory.readWord [] i = 0#32 := rfl

/-- Settles O11: both resets are `resetEngine`, whose fields are R47's table. -/
theorem resetValues : Obligations.ResetValues := by
  unfold Obligations.ResetValues
  refine ⟨rfl, fun s => ⟨resetEngine s, rfl, ?_⟩⟩
  refine ⟨rfl, rfl, rfl, rfl, rfl, rfl, rfl, rfl, rfl, rfl, rfl, rfl, rfl, rfl, rfl, rfl, rfl, rfl, rfl, rfl, rfl, rfl, rfl,
    rfl, readWord_nil, readWord_nil, rfl, rfl, rfl, rfl, readWord_nil, readWord_nil, readWord_nil, rfl, fun _ _ => rfl,
    rfl, rfl, rfl⟩

/-! ## Writes and reads -/

/-- Settles O19: by the two outcomes of `writeCmd`. -/
theorem cmdWrite : Obligations.CmdWrite := by
  unfold Obligations.CmdWrite
  refine ⟨fun s v hb he => ?_, fun s v h => ?_, fun s hb => hostRead_reg_of_idle hb .cmd, rfl⟩
  · exact ⟨_, (hostWrite_reg .cmd v s).trans (congrArg _ (writeCmd_of_idle hb he v)), rfl⟩
  · exact (hostWrite_reg .cmd v s).trans (congrArg _ (writeCmd_of_refused h v))

/-- Settles O20: by what a STATUS write leaves of each bit; ACK has a 1 at all three. -/
theorem statusWrite : Obligations.StatusWrite := by
  unfold Obligations.StatusWrite
  refine ⟨fun s v => ?_, fun s => ?_⟩
  · exact (hostWrite_reg .status v s).trans (congrArg _ (writeStatus_eq v s))
  · have hclear : writeStatus 0x0000000E#32 s =
        { s with done := false, err := false, haz := false, errcode := 0#8, errcmd := 0#32, errarg := 0#32 } := rfl
    exact (busEvent_regWrite .status _ s).trans (congrArg _ hclear)

/-- Settles O23: register by register; the offsets above the last register name none. -/
theorem registerWrites : Obligations.RegisterWrites := by
  unfold Obligations.RegisterWrites
  refine ⟨fun s v hb => ?_, fun s v => ?_, fun s v a hlo hhi halign => ?_⟩
  · have hw : ∀ (r : Reg) (f : State → State), writeReg v s r = writeIfIdle f s →
        hostWrite 4 (offsetOf r) v s = .next (f s) := fun r f hf => by
      rw [hostWrite_reg, hf, writeIfIdle_of_idle hb]
    exact ⟨hw .arg0 (fun t => { t with arg0 := v }) rfl, hw .arg1 (fun t => { t with arg1 := v }) rfl,
      hw .arg2 (fun t => { t with arg2 := v }) rfl, hw .wordlen (fun t => { t with wordlen := v.setWidth 16 }) rfl,
      hw .mbhdr (fun t => { t with mbhdr := v.setWidth 16 }) rfl⟩
  · change ∀ a ∈ readOnlyRegs.map offsetOf, hostWrite 4 a v s = .next s
    refine List.forall_mem_map.2 fun r hr => ?_
    rw [hostWrite_reg, writeReg_readOnly v s r hr]
  · have hlegal : accessLegal 4 a.toNat = true := by simp [accessLegal, halign]
    have hhole : targetAt a.toNat = .hole := targetAt_hole hlo (by omega)
    constructor
    · rw [hostWrite, if_pos hlegal, hhole]
    · rw [hostRead, if_pos hlegal, hhole]
      rfl

/-- Settles O27: while BUSY = 0 every register reads its value. -/
theorem registerReads : Obligations.RegisterReads := by
  unfold Obligations.RegisterReads
  intro s hb
  have hr : ∀ (r : Reg) {w : Word}, readReg s r = w → hostRead 4 (offsetOf r) s = .next { s with busData := w } :=
    fun r _ hw => hw ▸ hostRead_reg_of_idle hb r
  exact ⟨hr .id rfl, hr .errcode (BitVec.ofNat_toNat 32 _), hr .errcmd rfl, hr .errarg rfl, hr .arg0 rfl, hr .arg1 rfl,
    hr .arg2 rfl, hr .result0 rfl, hr .result1 rfl, hr .result2 rfl, hr .wordlen (BitVec.ofNat_toNat 32 _),
    hr .mbhdr (BitVec.ofNat_toNat 32 _), hr .mbpos rfl, hr .nplanes (BitVec.ofNat_toNat 32 _), hr .maxabs rfl,
    hr .geomW rfl, hr .geomH rfl, hr .geomL (BitVec.ofNat_toNat 32 _), hr .bandused rfl⟩

end Sys2Proof.Machine
end

section
/-! Whose turn a step is (10_state.md R43; 20_memory.md R61), and runs of several steps (30_encoding.md R81). -/

namespace Sys2Proof.Machine

/-! ## One step -/

theorem engineTurn_iff (s : State) :
    engineTurn s = true ↔ s.pending = true ∧ ∀ e rest, s.hostQ = e :: rest → e.early = false := by
  unfold engineTurn
  cases s.hostQ with
  | nil => simp
  | cons e rest => simp

theorem step_of_engineTurn {s : State} (hp : s.pending = true) (hq : ∀ e rest, s.hostQ = e :: rest → e.early = false) :
    step s = engineStep s :=
  if_pos ((engineTurn_iff s).2 ⟨hp, hq⟩)

theorem step_of_hostTurn {s : State} {e : HostEvent} {rest : List HostEvent} (hq : s.hostQ = e :: rest)
    (h : s.pending = false ∨ e.early = true) : step s = busEvent e.op { s with hostQ := rest } := by
  have hturn : ¬ engineTurn s = true := fun ht => by
    obtain ⟨hp, he⟩ := (engineTurn_iff s).1 ht
    rcases h with h | h
    · exact absurd (hp.symm.trans h) (by decide)
    · exact absurd (h.symm.trans (he e rest hq)) (by decide)
  rw [step, if_neg hturn, hostTurn, hq]

theorem step_of_idle {s : State} (hp : s.pending = false) (hq : s.hostQ = []) : step s = .next s := by
  rw [step, engineTurn, hp, hostTurn, hq]
  rfl

theorem engineStep_of_decode {s : State} {i : Instr} (h : decode s.cmd = .ok i) : engineStep s = exec i s := by
  rw [engineStep, h]

/-- The word of `decodeTableWord` is the one that `withFetchWord` accepts. -/
theorem decode_withFetchWord {nbits w : Nat} {i : Instr} (h : decodeTableWord nbits w = some i) (s : State) :
    decode (s.withFetchWord nbits w).cmd = .ok i := by
  change decode (BitVec.ofNat 32 (w % 2 ^ nbits)) = .ok i
  unfold decodeTableWord at h
  split at h
  · next j hj => exact hj.trans (congrArg _ (Option.some.inj h))
  · cases h

/-- Settles O1: by whose turn it is; the state of `withFetchWord` has its word pending and no event before it. -/
theorem stepRunsDecodedCommand : Obligations.StepRunsDecodedCommand := by
  unfold Obligations.StepRunsDecodedCommand
  refine ⟨fun s i hp hq hd => ?_, fun s hp hq => step_of_engineTurn hp hq, fun s e rest hq h => step_of_hostTurn hq h,
    fun s width a v => ⟨rfl, rfl⟩, fun s hp hq => step_of_idle hp hq, fun s nbits w i h => ?_⟩
  · exact (step_of_engineTurn hp hq).trans (engineStep_of_decode hd)
  · exact (step_of_engineTurn rfl fun e rest hq => (List.cons_ne_nil e rest hq.symm).elim).trans (engineStep_of_decode (decode_withFetchWord h s))

/-! ## Runs -/

theorem run_succ {s t : State} (h : step s = .next t) (n : Nat) :
    Sys2Proof.core.run (n + 1) s = Sys2Proof.core.run n t := by
  have hcore : Sys2Proof.core.step s = .next t := h
  simp only [Host.Core.run, hcore]

/-- While nothing is pending, the next queued register write is the next step. -/
theorem run_regWrite {s t : State} {r : Reg} {v : Word} {rest : List HostEvent} (hp : s.pending = false)
    (hq : s.hostQ = ⟨false, regWrite r v⟩ :: rest) (ht : writeReg v { s with hostQ := rest } r = t) (n : Nat) :
    Sys2Proof.core.run (n + 1) s = Sys2Proof.core.run n t := by
  refine run_succ ?_ n
  rw [step_of_hostTurn hq (.inl hp), busEvent_regWrite, ht]

/-- While nothing is pending and BUSY = 0, the next queued write of an argument is the next step. -/
theorem run_writeIfIdle {s : State} {r : Reg} {v : Word} {rest : List HostEvent} (f : State → State)
    (hf : ∀ t, writeReg v t r = writeIfIdle f t) (hb : s.busy = false) (hp : s.pending = false)
    (hq : s.hostQ = ⟨false, regWrite r v⟩ :: rest) {n : Nat} {o : Host.Outcome State Fault Refusal}
    (h : Sys2Proof.core.run n (f { s with hostQ := rest }) = o) : Sys2Proof.core.run (n + 1) s = o :=
  (run_regWrite hp hq ((hf _).trans (writeIfIdle_of_idle hb)) n).trans h

/-- R81 RUN, without its ARG writes: the CMD write is accepted. -/
theorem run_issue {s : State} {i : Instr} {rest : List HostEvent} (hb : s.busy = false) (he : s.err = false)
    (hp : s.pending = false) (hq : s.hostQ = ⟨false, issue i⟩ :: rest) :
    Sys2Proof.core.run 1 s = .next (acceptCmd (encode i) { s with hostQ := rest }) :=
  run_regWrite hp hq (writeCmd_of_idle (s := { s with hostQ := rest }) hb he (encode i)) 0

/-- R81 RUN with its ARG writes: each is one step, then the CMD write is accepted. -/
theorem run_runEvents {s : State} {i : Instr} {polls : Nat} (hb : s.busy = false) (he : s.err = false) (hp : s.pending = false) {args : List Word}
    (hlen : args.length ≤ 3) (hq : s.hostQ = runEvents i args polls) :
    Sys2Proof.core.run (args.length + 1) s = .next (acceptCmd (encode i)
      { s with
        arg0 := args.getD 0 s.arg0, arg1 := args.getD 1 s.arg1, arg2 := args.getD 2 s.arg2
        hostQ := waitEvents polls }) := by
  match args with
  | [] => exact run_issue hb he hp hq
  | [a] =>
    refine run_writeIfIdle (fun t => { t with arg0 := a }) (fun _ => rfl) hb hp hq ?_
    exact run_issue hb he hp rfl
  | [a, b] =>
    refine run_writeIfIdle (fun t => { t with arg0 := a }) (fun _ => rfl) hb hp hq ?_
    refine run_writeIfIdle (fun t => { t with arg1 := b }) (fun _ => rfl) (by exact hb) (by exact hp) rfl ?_
    exact run_issue hb he hp rfl
  | [a, b, c] =>
    refine run_writeIfIdle (fun t => { t with arg0 := a }) (fun _ => rfl) hb hp hq ?_
    refine run_writeIfIdle (fun t => { t with arg1 := b }) (fun _ => rfl) (by exact hb) (by exact hp) rfl ?_
    refine run_writeIfIdle (fun t => { t with arg2 := c }) (fun _ => rfl) (by exact hb) (by exact hp) rfl ?_
    exact run_issue hb he hp rfl
  | _ :: _ :: _ :: _ :: _ =>
    simp only [List.length_cons] at hlen
    omega

/-- R81 WAIT: the polls leave the command pending, then the engine completes it, then the last poll reads BUSY = 0. -/
theorem run_waitEvents (polls : Nat) (rest : List HostEvent) :
    ∀ s : State, s.pending = true → s.hostQ = waitEvents polls ++ rest →
      ∃ t, Sys2Proof.core.run (polls + 2) s = .next t ∧
        t.pending = false ∧ t.done = true ∧ t.busData.getLsbD 0 = false ∧ t.hostQ = rest := by
  induction polls with
  | zero =>
    intro s hp hq
    obtain ⟨t, ht, hbusy, hdone, hpending, hside⟩ := engineStep_completes s
    have hturn : step s = .next t := by
      rw [step_of_engineTurn hp, ht]
      intro e rest' he
      cases he.symm.trans hq
      rfl
    have hpoll : step t = .next { t with hostQ := rest, busData := t.statusWord } := by
      rw [step_of_hostTurn (hside.hostQ.trans hq) (.inl hpending)]
      exact hostRead_reg_of_idle (s := { t with hostQ := rest }) hbusy .status
    refine ⟨_, (run_succ hturn 1).trans (run_succ hpoll 0), hpending, hdone, ?_, rfl⟩
    exact (getLsbD_statusWord t 0).trans hbusy
  | succ polls ih =>
    intro s hp hq
    have hturn : ∃ v n, step s = .next { s with hostQ := waitEvents polls ++ rest, busData := v, freeCtr := n } := by
      rw [step_of_hostTurn hq (.inr rfl)]
      rcases hostRead_cases 4 (offsetOf .status) { s with hostQ := waitEvents polls ++ rest } with hf | ⟨v, n, hr⟩
      · exact absurd ((hostRead_reg .status _).symm.trans hf) (by simp)
      · exact ⟨v, _, hr⟩
    obtain ⟨v, n, hstep⟩ := hturn
    rw [run_succ hstep]
    exact ih _ hp rfl

/-- Settles O14: a command's result is completed and keeps the host's side; RUN and WAIT step by step. -/
theorem commandsComplete : Obligations.CommandsComplete := by
  unfold Obligations.CommandsComplete
  refine ⟨fun i s => ?_, fun s => ?_, fun s i args polls hb he hp hlen hq => run_runEvents hb he hp hlen hq,
    fun s polls rest hp hq => run_waitEvents polls rest s hp hq⟩
  · obtain ⟨hbusy, hdone, hpending⟩ := commandResult_completed i s
    have k := commandResult_sameHostSide i s
    exact ⟨_, exec_eq i s, hbusy, hdone, hpending, k.arg0, k.arg1, k.arg2, k.cmd, k.ieDone, k.ieErr, k.favorSpeed,
      k.ieDoneTaken, k.ieErrTaken, k.favorTaken, k.haz, k.capBand, k.hostQ, k.busData⟩
  · obtain ⟨t, ht, hbusy, hdone, hpending, -⟩ := engineStep_completes s
    exact ⟨t, ht, hbusy, hdone, hpending⟩

end Sys2Proof.Machine
end

section
/-! The address map and bus errors (20_memory.md R51 to R53, R57): which events fault, and that a machine whose outside
makes none runs for ever (70_reset_and_hazards.md R260, R261). -/

namespace Sys2Proof.Machine

/-! ## Events of the outside -/

/-- R51 to R53: a read is delivered, or is a bus error. -/
theorem hostRead_legal_or_fault (width : Nat) (addr : BitVec 20) (s : State) :
    (eventLegal (.read width addr) = true ∧ ∃ t, hostRead width addr s = .next t) ∨
      (eventLegal (.read width addr) = false ∧ hostRead width addr s = .fault .busError) := by
  simp only [eventLegal, hostRead]
  cases accessLegal width addr.toNat with
  | false => exact .inr ⟨rfl, rfl⟩
  | true =>
    cases targetAt addr.toNat with
    | unmapped => exact .inr ⟨rfl, rfl⟩
    | reg _ | hole | mbv _ | cb _ => exact .inl ⟨rfl, _, rfl⟩

/-- R51 to R53, R57: a write is made, or is a bus error. -/
theorem hostWrite_legal_or_fault (width : Nat) (addr : BitVec 20) (v : Word) (s : State) :
    (eventLegal (.write width addr v) = true ∧ ∃ t, hostWrite width addr v s = .next t) ∨
      (eventLegal (.write width addr v) = false ∧ hostWrite width addr v s = .fault .busError) := by
  simp only [eventLegal, hostWrite]
  cases accessLegal width addr.toNat with
  | false => exact .inr ⟨rfl, rfl⟩
  | true =>
    cases targetAt addr.toNat with
    | mbv _ | unmapped => exact .inr ⟨rfl, rfl⟩
    | reg _ | hole | cb _ => exact .inl ⟨rfl, _, rfl⟩

/-- Everything an event can do: a legal one answers a next state, any other is a bus error. -/
theorem busEvent_legal_or_fault (op : BusOp) (s : State) :
    (eventLegal op = true ∧ ∃ t, busEvent op s = .next t) ∨
      (eventLegal op = false ∧ busEvent op s = .fault .busError) := by
  cases op with
  | read width addr => exact hostRead_legal_or_fault width addr s
  | write width addr v => exact hostWrite_legal_or_fault width addr v s
  | reset => exact .inl ⟨rfl, _, rfl⟩

/-- A step faults on a bus error of the outside, and answers a next state otherwise. -/
theorem step_next_or_fault (s : State) :
    ((∃ t, step s = .next t) ∧
        ∀ e rest, engineTurn s = false → s.hostQ = e :: rest → eventLegal e.op = true) ∨
      (step s = .fault .busError ∧
        engineTurn s = false ∧ ∃ e rest, s.hostQ = e :: rest ∧ eventLegal e.op = false) := by
  rcases step_cases s with ⟨hturn, hstep⟩ | ⟨-, hq, hstep⟩ | ⟨e, rest, hturn, hq, hstep⟩ <;> rw [hstep]
  · obtain ⟨t, ht, -⟩ := engineStep_completes s
    exact .inl ⟨⟨t, ht⟩, fun _ _ hfalse _ => absurd (hturn.symm.trans hfalse) (by simp)⟩
  · exact .inl ⟨⟨s, rfl⟩, fun e rest _ hcons => absurd (hq.symm.trans hcons) (by simp)⟩
  · rcases busEvent_legal_or_fault e.op { s with hostQ := rest } with ⟨hlegal, hnext⟩ | ⟨hillegal, hfault⟩
    · refine .inl ⟨hnext, fun e' rest' _ hcons => ?_⟩
      obtain ⟨rfl, -⟩ := List.cons.inj (hq.symm.trans hcons)
      exact hlegal
    · exact .inr ⟨hfault, hturn, e, rest, hq, hillegal⟩

/-- Settles O17: a step answers a next state, or it is the outside's turn with a bus error next. -/
theorem faultsAreBusErrors : Obligations.FaultsAreBusErrors := by
  unfold Obligations.FaultsAreBusErrors
  intro s
  rcases step_next_or_fault s with ⟨⟨t, ht⟩, hlegal⟩ | ⟨hfault, hbad⟩
  · rw [ht]
    refine ⟨⟨nofun, fun ⟨hturn, e, rest, hq, hillegal⟩ => ?_⟩, nofun⟩
    exact absurd ((hlegal e rest hturn hq).symm.trans hillegal) (by simp)
  · rw [hfault]
    exact ⟨⟨fun _ => hbad, fun _ => ⟨_, rfl⟩⟩, nofun⟩

/-! ## The queue of the outside -/

theorem writeIfIdle_hostQ {f : State → State} {s : State} (hf : (f s).hostQ = s.hostQ) :
    (writeIfIdle f s).hostQ = s.hostQ := by
  rcases writeIfIdle_cases f s with ⟨-, he⟩ | ⟨-, he⟩ <;> rw [he]
  · rfl
  · exact hf

theorem writeReg_hostQ (v : Word) (s : State) (r : Reg) : (writeReg v s r).hostQ = s.hostQ := by
  cases r
  case ctrl => rcases writeCtrl_cases v s with ⟨-, he⟩ | ⟨-, -, he⟩ | ⟨-, -, he⟩ <;> rw [writeReg, he] <;> rfl
  case status => rw [writeReg, writeStatus_eq]
  case cmd => rcases writeCmd_cases v s with ⟨-, he⟩ | ⟨-, -, he⟩ <;> rw [writeReg, he] <;> rfl
  case arg0 | arg1 | arg2 | wordlen | mbhdr => exact writeIfIdle_hostQ rfl
  all_goals rfl

/-- No event of the outside touches the events still to come. -/
theorem busEvent_hostQ {op : BusOp} {s t : State} (h : busEvent op s = .next t) : t.hostQ = s.hostQ := by
  cases op with
  | read width addr =>
    rcases hostRead_cases width addr s with hf | ⟨v, n, hr⟩
    · exact absurd (hf.symm.trans h) (by simp)
    · cases hr.symm.trans h
      rfl
  | write width addr v =>
    rcases hostWrite_next h with rfl | ⟨r, rfl⟩ | ⟨i, -, rfl⟩
    · rfl
    · exact writeReg_hostQ v s r
    · exact writeIfIdle_hostQ rfl
  | reset =>
    cases h
    rfl

/-! ## Safe runs -/

/-- A step keeps the queue or takes its first event. -/
theorem step_hostQ {s t : State} (h : step s = .next t) : t.hostQ = s.hostQ ∨ t.hostQ = s.hostQ.tail := by
  rcases step_cases s with ⟨-, he⟩ | ⟨-, -, he⟩ | ⟨e, rest, -, hq, he⟩ <;> rw [he] at h
  · obtain ⟨u, hu, -, -, -, hside⟩ := engineStep_completes s
    cases hu.symm.trans h
    exact .inl hside.hostQ
  · cases h
    exact .inl rfl
  · exact .inr ((busEvent_hostQ h).trans (congrArg List.tail hq).symm)

theorem hostLegal_iff (s : State) : s.hostLegal = true ↔ ∀ e ∈ s.hostQ, eventLegal e.op = true := List.all_eq_true

/-- Every step of a machine whose outside makes no bus error answers such a machine. -/
theorem step_of_hostLegal {s : State} (hs : s.hostLegal = true) : ∃ t, step s = .next t ∧ t.hostLegal = true := by
  rw [hostLegal_iff] at hs
  rcases step_next_or_fault s with ⟨⟨t, ht⟩, -⟩ | ⟨-, -, e, rest, hq, hillegal⟩
  · refine ⟨t, ht, (hostLegal_iff t).2 fun e he => hs e ?_⟩
    rcases step_hostQ ht with hsame | htail
    · exact hsame ▸ he
    · exact List.mem_of_mem_tail (htail ▸ he)
  · exact absurd ((hs e (by simp [hq])).symm.trans hillegal) (by simp)

/-- Settles O18, by induction on the number of steps: a step takes at most one event off the queue and adds none. -/
theorem legalHostRunsSafely : Obligations.LegalHostRunsSafely := by
  unfold Obligations.LegalHostRunsSafely
  intro s n
  induction n generalizing s with
  | zero => exact fun _ => ⟨s, rfl⟩
  | succ n ih =>
    intro hs
    obtain ⟨t, ht, hlegal⟩ := step_of_hostLegal hs
    obtain ⟨u, hu⟩ := ih t hlegal
    exact ⟨u, (run_succ ht n).trans hu⟩

end Sys2Proof.Machine
end

section
/-! Accesses to the windows and reads (20_memory.md R51, R53, R57, R59, R60; 60_exceptions.md R231). -/

namespace Sys2Proof.Machine

/-! ## Illegal accesses (R52, R53) -/

/-- R51: the gaps of the address map. -/
def inGap (a : Nat) : Prop := (0x01000 ≤ a ∧ a < 0x20000) ∨ (0x30000 ≤ a ∧ a < 0x40000) ∨ 0x60000 ≤ a

theorem targetAt_of_inGap {a : Nat} (h : inGap a) : targetAt a = .unmapped := by
  unfold inGap at h
  have hreg : ¬ a < 0x01000 := by omega
  have hmbv : ¬ (0x20000 ≤ a ∧ a < 0x20000 + 4 * Config.mbCap) := by unfold Config.mbCap; omega
  have hcb : ¬ (0x40000 ≤ a ∧ a < 0x40000 + 4 * Config.codeWords) := by unfold Config.codeWords; omega
  rw [targetAt, if_neg hreg, if_neg hmbv, if_neg hcb]

theorem busError_of_accessIllegal {width : Nat} {a : BitVec 20} (h : accessLegal width a.toNat = false) (v : Word)
    (s : State) : hostRead width a s = .fault .busError ∧ hostWrite width a v s = .fault .busError := by
  rw [hostRead, hostWrite, h]
  exact ⟨rfl, rfl⟩

theorem busError_of_unmapped {a : BitVec 20} (h : targetAt a.toNat = .unmapped) (width : Nat) (v : Word) (s : State) :
    hostRead width a s = .fault .busError ∧ hostWrite width a v s = .fault .busError := by
  rw [hostRead, hostWrite, h]
  exact ⟨ite_self _, ite_self _⟩

/-- Settles O29: the access is illegal, or its address lies in a gap of the map. -/
theorem busErrors : Obligations.BusErrors := by
  unfold Obligations.BusErrors
  rintro s width a v (hwidth | halign | hgap)
  · exact busError_of_accessIllegal (by simp [accessLegal, hwidth]) v s
  · exact busError_of_accessIllegal (by simp [accessLegal, halign]) v s
  · exact busError_of_unmapped (targetAt_of_inGap hgap) width v s

/-! ## The windows (R51) -/

section

variable {i : Nat} (s : State)

theorem toNat_cbAddr (hi : i < 32768) : (BitVec.ofNat 20 (0x40000 + 4 * i)).toNat = 0x40000 + 4 * i :=
  (BitVec.toNat_ofNat _ _).trans (Nat.mod_eq_of_lt (by omega))

theorem toNat_mbvAddr (hi : i < 16384) : (BitVec.ofNat 20 (0x20000 + 4 * i)).toNat = 0x20000 + 4 * i :=
  (BitVec.toNat_ofNat _ _).trans (Nat.mod_eq_of_lt (by omega))

theorem accessLegal_of_dvd {a : Nat} (h : a % 4 = 0) : accessLegal 4 a = true := by simp [accessLegal, h]

theorem targetAt_cbAddr (hi : i < 32768) : targetAt (0x40000 + 4 * i) = .cb i := by
  have hreg : ¬ 0x40000 + 4 * i < 0x01000 := by omega
  have hmbv : ¬ (0x20000 ≤ 0x40000 + 4 * i ∧ 0x40000 + 4 * i < 0x20000 + 4 * Config.mbCap) := by
    unfold Config.mbCap; omega
  have hcb : 0x40000 ≤ 0x40000 + 4 * i ∧ 0x40000 + 4 * i < 0x40000 + 4 * Config.codeWords := by
    unfold Config.codeWords; omega
  have hword : (0x40000 + 4 * i - 0x40000) / 4 = i := by omega
  rw [targetAt, if_neg hreg, if_neg hmbv, if_pos hcb, hword]

theorem targetAt_mbvAddr (hi : i < 16384) : targetAt (0x20000 + 4 * i) = .mbv i := by
  have hreg : ¬ 0x20000 + 4 * i < 0x01000 := by omega
  have hmbv : 0x20000 ≤ 0x20000 + 4 * i ∧ 0x20000 + 4 * i < 0x20000 + 4 * Config.mbCap := by
    unfold Config.mbCap; omega
  have hword : (0x20000 + 4 * i - 0x20000) / 4 = i := by omega
  rw [targetAt, if_neg hreg, if_pos hmbv, hword]

theorem hostWrite_cb (hi : i < 32768) (v : Word) : hostWrite 4 (BitVec.ofNat 20 (0x40000 + 4 * i)) v s =
    .next (writeIfIdle (fun t => { t with cb := t.cb.writeWords i [v] }) s) := by
  rw [hostWrite, toNat_cbAddr hi, if_pos (accessLegal_of_dvd (by omega)), targetAt_cbAddr hi]

theorem hostRead_cb_of_idle (hi : i < 32768) (hb : s.busy = false) :
    hostRead 4 (BitVec.ofNat 20 (0x40000 + 4 * i)) s = .next { s with busData := s.cb.readWord i } := by
  rw [hostRead, toNat_cbAddr hi, if_pos (accessLegal_of_dvd (by omega)), targetAt_cbAddr hi]
  simp only [openBits_of_idle hb, deliverFree_zero]

theorem hostRead_mbv_of_idle (hi : i < 16384) (hb : s.busy = false) :
    hostRead 4 (BitVec.ofNat 20 (0x20000 + 4 * i)) s = .next { s with busData := s.mbv.readWord i } := by
  rw [hostRead, toNat_mbvAddr hi, if_pos (accessLegal_of_dvd (by omega)), targetAt_mbvAddr hi]
  simp only [openBits_of_idle hb, deliverFree_zero]

/-- R57: MBV is read-only to the host. -/
theorem hostWrite_mbv (hi : i < 16384) (v : Word) :
    hostWrite 4 (BitVec.ofNat 20 (0x20000 + 4 * i)) v s = .fault .busError := by
  rw [hostWrite, toNat_mbvAddr hi, if_pos (accessLegal_of_dvd (by omega)), targetAt_mbvAddr hi]

end

/-! ## Accesses while BUSY = 1 (R60, R231) -/

theorem writeIfIdle_of_busy (f : State → State) {s : State} (hb : s.busy = true) : writeIfIdle f s = hazard s := by
  rw [writeIfIdle, hb]
  rfl

/-- R60: the registers whose writes BUSY refuses. -/
def busyRefusedRegs : List Reg := [.cmd, .arg0, .arg1, .arg2, .wordlen, .mbhdr]

theorem writeReg_of_busy {s : State} (hb : s.busy = true) (v : Word) :
    ∀ r ∈ busyRefusedRegs, writeReg v s r = hazard s := by
  simp [busyRefusedRegs, writeReg, writeCmd_of_refused (.inl hb), writeIfIdle_of_busy _ hb]

/-- Settles O22: BUSY refuses the writes, and the registers read are in R60's first list or log 8's. -/
theorem busyRefusals : Obligations.BusyRefusals := by
  unfold Obligations.BusyRefusals
  intro s hb
  have hr : ∀ r, busyUnspecified r = 0#32 → hostRead 4 (offsetOf r) s = .next { s with busData := readReg s r } :=
    fun r h => hostRead_reg_of_specified h s
  refine ⟨?_, fun i v hi => ?_, hr .id rfl, hr .ctrl rfl, hr .capMb rfl, hr .capCb rfl, hr .capBand rfl, hr .cmd rfl,
    hr .arg0 rfl, hr .arg1 rfl, hr .arg2 rfl⟩
  · change ∀ a ∈ busyRefusedRegs.map offsetOf, ∀ v, hostWrite 4 a v s = .next (hazard s)
    refine List.forall_mem_map.2 fun r hr v => ?_
    rw [hostWrite_reg, writeReg_of_busy hb v r hr]
  · rw [hostWrite_cb s hi, writeIfIdle_of_busy _ hb]
    rfl

/-! ## Reads (R59) -/

theorem readReg_busData (v : Word) (s : State) (r : Reg) : readReg { s with busData := v } r = readReg s r := by
  cases r <;> rfl

/-- R59: while BUSY = 0 a read is a bus error, or delivers one word whatever was delivered before. -/
theorem hostRead_of_idle {s : State} (hb : s.busy = false) (width : Nat) (a : BitVec 20) :
    hostRead width a s = .fault .busError ∨
      ∃ v, ∀ w, hostRead width a { s with busData := w } = .next { s with busData := v } := by
  have hopen : ∀ mask w, openBits { s with busData := w } mask = 0#32 := fun mask w => openBits_of_idle hb mask
  simp only [hostRead, hopen, deliverFree_zero, readReg_busData, deliver]
  cases accessLegal width a.toNat with
  | false => exact .inl rfl
  | true =>
    cases targetAt a.toNat with
    | unmapped => exact .inl rfl
    | reg _ | hole | mbv _ | cb _ => exact .inr ⟨_, fun _ => rfl⟩

/-- Settles O25: a read sets the read data and the free-value counter; while BUSY = 0 only the read data, which no read
depends on. -/
theorem readsChangeNothing : Obligations.ReadsChangeNothing := by
  unfold Obligations.ReadsChangeNothing
  intro s t width a h
  constructor
  · rcases hostRead_cases width a s with hf | ⟨v, n, hr⟩
    · exact absurd (hf.symm.trans h) (by simp)
    · cases hr.symm.trans h
      rfl
  · intro hb
    rcases hostRead_of_idle hb width a with hf | ⟨v, hr⟩
    · exact absurd (hf.symm.trans h) (by simp)
    · cases (hr s.busData).symm.trans h
      exact ⟨rfl, hr v⟩

end Sys2Proof.Machine
end

section
/-! The bytes, words and bits of an array, and its bit string (20_memory.md R54, R55; 40_bitstream.md R92). -/

namespace Sys2Proof.Machine

/-! ## Bytes and words (R54) -/

theorem readWord_congr {m n : Memory} {i j : Nat} (h : ∀ k, k < 4 → m.read (4 * i + k) = n.read (4 * j + k)) :
    m.readWord i = n.readWord j := by
  have h0 : m.read (4 * i) = n.read (4 * j) := h 0 (by omega)
  rw [Memory.readWord, Memory.readWord, h0, h 1 (by omega), h 2 (by omega), h 3 (by omega)]

theorem toNat_readWord (m : Memory) (i : Nat) : (m.readWord i).toNat =
    (m.read (4 * i)).toNat + 2 ^ 8 * (m.read (4 * i + 1)).toNat + 2 ^ 16 * (m.read (4 * i + 2)).toNat
      + 2 ^ 24 * (m.read (4 * i + 3)).toNat := by
  have h0 := (m.read (4 * i)).isLt
  have h1 := (m.read (4 * i + 1)).isLt
  have h2 := (m.read (4 * i + 2)).isLt
  have h3 := (m.read (4 * i + 3)).isLt
  exact (BitVec.toNat_ofNat _ _).trans (Nat.mod_eq_of_lt (by omega))

/-- Byte lane `k` of a word is the byte at `k` bytes above the word's address. -/
theorem extractLsb'_readWord (m : Memory) (i : Nat) {k : Nat} (hk : k < 4) :
    (m.readWord i).extractLsb' (8 * k) 8 = m.read (4 * i + k) := by
  apply BitVec.eq_of_toNat_eq
  rw [BitVec.extractLsb'_toNat, Nat.shiftRight_eq_div_pow, toNat_readWord]
  have h0 := (m.read (4 * i)).isLt
  have h1 := (m.read (4 * i + 1)).isLt
  have h2 := (m.read (4 * i + 2)).isLt
  have h3 := (m.read (4 * i + 3)).isLt
  obtain rfl | rfl | rfl | rfl : k = 0 ∨ k = 1 ∨ k = 2 ∨ k = 3 := by omega
  · rw [Nat.mul_zero, Nat.pow_zero, Nat.div_one, Nat.add_zero (4 * i)]
    omega
  all_goals omega

/-- Bit `j` of word `i` is the bit at position `32 i + j` (R55). -/
theorem getLsbD_readWord (m : Memory) (i : Nat) {j : Nat} (hj : j < 32) :
    (m.readWord i).getLsbD j = m.getBit (32 * i + j) := by
  have hlane := extractLsb'_readWord m i (k := j / 8) (by omega)
  have hbyte : (32 * i + j) / 8 = 4 * i + j / 8 := by omega
  have hmod : (32 * i + j) % 8 = j % 8 := by omega
  have hsplit : 8 * (j / 8) + j % 8 = j := by omega
  have hlt : j % 8 < 8 := by omega
  rw [Memory.getBit, hbyte, hmod, ← hlane, BitVec.getLsbD_extractLsb', hsplit, decide_eq_true hlt, Bool.true_and]

/-! ## Stores of a word -/

theorem read_writeWord (m : Memory) (i x : Nat) (v : Word) : (m.writeWords i [v]).read x =
    if 4 * i ≤ x ∧ x < 4 * i + 4 then (wordBytes v).getD (x - 4 * i) 0#8 else m.read x :=
  Memory.read_write m (4 * i) (wordBytes v) x

theorem readWord_writeWord_same (m : Memory) (i : Nat) (v : Word) : (m.writeWords i [v]).readWord i = v := by
  have hbyte : ∀ k, k < 4 → (m.writeWords i [v]).read (4 * i + k) = (wordBytes v).getD k 0#8 := fun k hk => by
    rw [read_writeWord, if_pos (by omega), Nat.add_sub_cancel_left]
  have h0 : (m.writeWords i [v]).read (4 * i) = (wordBytes v).getD 0 0#8 := hbyte 0 (by omega)
  apply BitVec.eq_of_toNat_eq
  rw [toNat_readWord, h0, hbyte 1 (by omega), hbyte 2 (by omega), hbyte 3 (by omega)]
  have hv := v.isLt
  simp only [wordBytes, List.getD_cons_zero, List.getD_cons_succ, BitVec.toNat_ofNat]
  omega

theorem read_writeWord_of_ne (m : Memory) {i a : Nat} (v : Word) (h : ¬ (4 * i ≤ a ∧ a < 4 * i + 4)) :
    (m.writeWords i [v]).read a = m.read a := by
  rw [read_writeWord, if_neg h]

theorem readWord_writeWord_of_ne (m : Memory) {i j : Nat} (v : Word) (h : j ≠ i) :
    (m.writeWords i [v]).readWord j = m.readWord j :=
  readWord_congr fun _ _ => read_writeWord_of_ne m v (by omega)

/-! ## The bit string of an array (R55) -/

/-- Below the addresses of a rising memory every byte reads 0. -/
theorem read_of_lt_rising {m : Memory} {lo a : Nat} (h : Memory.risingFrom lo m = true) (ha : a < lo) :
    m.read a = 0#8 :=
  Memory.read_of_absent m a fun c hc => by
    have hge := Memory.risingFrom_mem h c hc
    omega

/-- Bit `p` of the number whose byte `k` is `v`. -/
theorem testBit_byte_shiftLeft (v : Byte) (k p : Nat) :
    (v.toNat <<< (8 * k)).testBit p = (decide (p / 8 = k) && v.getLsbD (p % 8)) := by
  rw [Nat.testBit_shiftLeft, ← BitVec.getLsbD]
  rcases lt_trichotomy (p / 8) k with h | h | h
  · have hp : ¬ p ≥ 8 * k := by omega
    simp [hp, h.ne]
  · have hp : p ≥ 8 * k := by omega
    have hmod : p - 8 * k = p % 8 := by omega
    simp [hp, h, hmod]
  · have hge : 8 ≤ p - 8 * k := by omega
    simp [BitVec.getLsbD_of_ge _ _ hge, h.ne']

theorem toBits_cons (k : Nat) (v : Byte) (t : Memory) :
    Memory.toBits ((k, v) :: t) = t.toBits ||| (v.toNat <<< (8 * k)) := rfl

theorem testBit_toBits_of_rising (p : Nat) (m : Memory) :
    ∀ lo, Memory.risingFrom lo m = true → m.toBits.testBit p = m.getBit p := by
  induction m with
  | nil => intro lo _; simp [Memory.toBits, Memory.getBit]
  | cons c t ih =>
    obtain ⟨k, v⟩ := c
    intro lo h
    simp only [Memory.risingFrom, Bool.and_eq_true, decide_eq_true_eq] at h
    have htail := ih (k + 1) h.2
    rw [toBits_cons, Nat.testBit_or, htail, testBit_byte_shiftLeft]
    by_cases hk : p / 8 = k
    · have hzero : Memory.read t k = 0#8 := read_of_lt_rising h.2 (by omega)
      simp [Memory.getBit, Memory.read, hzero, hk]
    · simp [Memory.getBit, Memory.read, hk, Ne.symm hk]

/-- The bit string of a canonical array has the array's bit at every position. -/
theorem getBit_toBits {m : Memory} (h : m.wf = true) (p : Nat) : BitString.getBit m.toBits p = m.getBit p :=
  testBit_toBits_of_rising p m 0 h

/-- Settles O28: the windows by `hostRead` and `hostWrite` at their addresses, the views by the byte lanes. -/
theorem windowAccess : Obligations.WindowAccess := by
  unfold Obligations.WindowAccess
  refine ⟨fun s i hb hi => ⟨hostRead_cb_of_idle s hi hb, fun v => ?_⟩,
    fun s i hi => ⟨hostRead_mbv_of_idle s hi, hostWrite_mbv s hi⟩,
    fun m i => ⟨fun k => extractLsb'_readWord m i, fun j => getLsbD_readWord m i⟩, fun s hs => ?_⟩
  · refine ⟨_, (hostWrite_cb s hi v).trans (congrArg _ (writeIfIdle_of_idle hb)), rfl,
      readWord_writeWord_same s.cb i v, fun j => readWord_writeWord_of_ne s.cb v, fun a => read_writeWord_of_ne s.cb v⟩
  · obtain ⟨hwf, -⟩ := (memory_sound_iff _ _).1 (cb_sound hs)
    exact getBit_toBits hwf

end Sys2Proof.Machine
end

section
/-! The length of an encoded payload (43_mb_encoder.md R173 to R183): a bound far above R190's, but below the 32-bit wrap
of NumberOfWords (R15), and the alignment of every plane's end. -/

namespace Sys2Proof.Machine

/-! ## Words of bits (R15) -/

theorem numberOfWords_mul_le (p : Nat) : numberOfWords p * 32 ≤ p + 31 := by
  unfold numberOfWords
  omega

theorem numberOfWords_of_aligned {p : Nat} (hp : p % 32 = 0) (hlt : p + 31 < 2 ^ 32) : numberOfWords p = p / 32 := by
  unfold numberOfWords
  omega

/-! ## The significance pass (R175) -/

/-- `y` counts at most `n` positions and `n` signs more than `x`. -/
def CountsWithin (n : Nat) (x y : SigPass) : Prop := y.sigPos ≤ x.sigPos + n ∧ y.signLen ≤ x.signLen + n

theorem sigStep_countsWithin (b : Nat) (e : Coef) (x : SigPass) : CountsWithin 1 x (sigStep b e x) := by
  unfold sigStep
  split
  · exact ⟨Nat.le_succ _, Nat.le_succ _⟩
  · split
    · exact ⟨le_refl _, le_refl _⟩
    · unfold zeroStep
      split <;> exact ⟨le_refl _, Nat.le_succ _⟩

theorem decompose_countsWithin (b : Nat) (cs : List Coef) :
    ∀ x, CountsWithin cs.length x (decompose b cs x) := by
  induction cs with
  | nil => exact fun x => ⟨le_refl _, le_refl _⟩
  | cons e t ih =>
    intro x
    obtain ⟨hpos, hsign⟩ := sigStep_countsWithin b e x
    obtain ⟨hpos', hsign'⟩ := ih (sigStep b e x)
    change CountsWithin (t.length + 1) x (decompose b t (sigStep b e x))
    constructor <;> omega

theorem planePass_sigPos_le (b : Nat) (e : EncState) : (planePass b e).sigPos ≤ e.coefs.length := by
  obtain ⟨hpos, -⟩ := decompose_countsWithin b e.coefs ⟨e.cb, e.cp + 16, 3, 0, 0, 0, 0, 0, e.reft, e.sgnt⟩
  exact hpos.trans (Nat.zero_add _).le

theorem planePass_signLen_le (b : Nat) (e : EncState) : (planePass b e).signLen ≤ e.coefs.length := by
  obtain ⟨-, hsign⟩ := decompose_countsWithin b e.coefs ⟨e.cb, e.cp + 16, 3, 0, 0, 0, 0, 0, e.reft, e.sgnt⟩
  exact hsign.trans (Nat.zero_add _).le

/-! ## The fields of a plane (R178 to R183) -/

theorem codeLen_le_of_choosesRlSig {codeLen sigLen signLen : Nat} (h : choosesRlSig codeLen sigLen signLen = true) :
    codeLen ≤ 32767 := by
  simp only [choosesRlSig, Bool.and_eq_true, decide_eq_true_eq] at h
  obtain ⟨⟨-, hle⟩, -⟩ := h
  exact hle

theorem signCodeLen_le_of_choosesRlSign {favorSpeed : Bool} {signCodeLen signLen : Nat}
    (h : choosesRlSign favorSpeed signCodeLen signLen = true) : signCodeLen ≤ 32767 := by
  simp only [choosesRlSign, Bool.and_eq_true, decide_eq_true_eq] at h
  obtain ⟨⟨-, hle⟩, -⟩ := h
  exact hle

/-- A Sign field takes a length field's worth of code, or its signs, and the alignment. -/
theorem emitSign_end_le (favorSpeed : Bool) (cb : BitString) (cp signCodeLen : Nat) (sgnt : BitString) (signLen : Nat) :
    (emitSign favorSpeed cb cp signCodeLen sgnt signLen).2 * 32 ≤ cp + signLen + 32767 + 78 := by
  unfold emitSign
  split
  · next h =>
    have hcode := signCodeLen_le_of_choosesRlSign h
    have hwords := numberOfWords_mul_le (cp + 16 + signCodeLen)
    simp only
    omega
  · have hstart := numberOfWords_mul_le (cp + 16)
    have hsigns := numberOfWords_mul_le signLen
    simp only
    omega

theorem emitSig_end_le (favorSpeed : Bool) (cp : Nat) (x : SigPass) :
    (emitSig favorSpeed cp x).2 ≤ cp + x.sigPos + x.signLen + 32767 + 125 := by
  unfold emitSig
  split
  · next h =>
    have hcode := codeLen_le_of_choosesRlSig h
    simp only [emitRlSig]
    omega
  · have hend : (emitLiteralSig favorSpeed cp x).2 ≤ cp + 16 + x.signLen + 32767 + 78 + (x.sigPos + 31) :=
      (Nat.add_mul _ _ 32).trans_le (Nat.add_le_add (emitSign_end_le _ _ _ _ _ _) (numberOfWords_mul_le _))
    omega

/-- A plane takes at most 2^17 bits. -/
theorem encodePlane_cp_le (favorSpeed : Bool) (b : Nat) (e : EncState) (h : e.coefs.length ≤ 16384) :
    (encodePlane favorSpeed b e).cp ≤ e.cp + 2 ^ 17 := by
  have hpos := planePass_sigPos_le b e
  have hsign := planePass_signLen_le b e
  have hsig := emitSig_end_le favorSpeed e.cp (planePass b e)
  have hcp := numberOfWords_mul_le (emitSig favorSpeed e.cp (planePass b e)).2
  have href := numberOfWords_mul_le (e.coefs.length - (planePass b e).sigPos)
  simp only [encodePlane, emitRefinement]
  omega

theorem encodePlane_cp_aligned (favorSpeed : Bool) (b : Nat) (e : EncState) :
    (encodePlane favorSpeed b e).cp % 32 = 0 := Nat.mul_mod_left _ _

theorem encodePlane_length (favorSpeed : Bool) (b : Nat) (e : EncState) :
    (encodePlane favorSpeed b e).coefs.length = e.coefs.length := List.length_map _

/-! ## All planes (R174) -/

theorem encodePlanes_cp_le (favorSpeed : Bool) (n : Nat) :
    ∀ e : EncState, e.coefs.length ≤ 16384 → (encodePlanes favorSpeed n e).cp ≤ e.cp + n * 2 ^ 17 := by
  induction n with
  | zero => exact fun e _ => Nat.le_add_right _ _
  | succ n ih =>
    intro e h
    have hplane := encodePlane_cp_le favorSpeed n e h
    have hrest := ih (encodePlane favorSpeed n e) ((encodePlane_length favorSpeed n e).trans_le h)
    rw [encodePlanes]
    omega

theorem encodePlanes_cp_aligned (favorSpeed : Bool) (n : Nat) :
    ∀ e : EncState, 1 ≤ n ∨ e.cp % 32 = 0 → (encodePlanes favorSpeed n e).cp % 32 = 0 := by
  induction n with
  | zero => exact fun e h => h.resolve_left (by omega)
  | succ n ih => exact fun e _ => ih _ (.inr (encodePlane_cp_aligned favorSpeed n e))

/-! ## The plane count (R170) -/

theorem isRunningMax_maxAbsAfter (vs : List Word) : ∀ m, isRunningMax m vs (maxAbsAfter m vs) := by
  induction vs with
  | nil => exact fun m => ⟨le_refl m, nofun, .inl rfl⟩
  | cons v t ih =>
    intro m
    obtain ⟨hle, hall, hmem⟩ := ih (max m (absCoef v))
    change isRunningMax m (v :: t) (maxAbsAfter (max m (absCoef v)) t)
    refine ⟨by omega, List.forall_mem_cons.2 ⟨by omega, hall⟩, ?_⟩
    rcases hmem with heq | ⟨w, hw, heq⟩
    · rcases le_total (absCoef v) m with hv | hv
      · exact .inl (heq.trans (max_eq_left hv))
      · exact .inr ⟨v, by simp, heq.trans (max_eq_right hv)⟩
    · exact .inr ⟨w, by simp [hw], heq⟩

theorem maxMagnitude_le (vs : List Word) : maxMagnitude vs ≤ 2 ^ 31 :=
  maxAbsAfter_le vs (fun v _ => absCoef_le v) (Nat.zero_le _)

theorem one_le_planeCount (m : Nat) : 1 ≤ planeCount m := by
  unfold planeCount bitlen
  split <;> omega

theorem planeCount_le {m : Nat} (h : m ≤ 2 ^ 31) : planeCount m ≤ 32 := by
  unfold planeCount bitlen
  split
  · omega
  · next hm =>
    have hlog : m.log2 < 32 := (Nat.log2_lt hm).2 (by omega)
    omega

/-! ## The whole payload -/

theorem encodeValues_cp_aligned (favorSpeed : Bool) (vs : List Word) : (encodeValues favorSpeed vs).cp % 32 = 0 :=
  encodePlanes_cp_aligned favorSpeed _ _ (.inl (one_le_planeCount _))

theorem encodeValues_cp_le (favorSpeed : Bool) {vs : List Word} (h : vs.length ≤ 16384) :
    (encodeValues favorSpeed vs).cp ≤ 5 + 32 * 2 ^ 17 := by
  have hplanes := planeCount_le (maxMagnitude_le vs)
  have hcp := encodePlanes_cp_le favorSpeed (planeCount (maxMagnitude vs))
    ⟨BitString.setVal 0 0 (planeCount (maxMagnitude vs) % (Config.maxPlanes + 1)) Config.nplanesBits, 5, vs.map coefOf,
      0, 0, 0⟩ (by rwa [List.length_map])
  exact hcp.trans (by simp only; omega)

theorem numberOfWords_encodeValues_cp (favorSpeed : Bool) {vs : List Word} (h : vs.length ≤ 16384) :
    numberOfWords (encodeValues favorSpeed vs).cp = (encodeValues favorSpeed vs).cp / 32 := by
  have hcp := encodeValues_cp_le favorSpeed h
  exact numberOfWords_of_aligned (encodeValues_cp_aligned favorSpeed vs) (by omega)

end Sys2Proof.Machine
end

section
/-! MB_ENCODE (43_mb_encoder.md R169, R170, R186, R188). -/

namespace Sys2Proof.Machine

/-! ## The array of a bit string (R55) -/

theorem getD_bytesOf (n : Nat) : ∀ a x : Nat,
    (bytesOf n a).getD x 0#8 = if x < n then BitVec.ofNat 8 (a / 2 ^ (8 * x)) else 0#8 := by
  induction n with
  | zero => intro a x; rfl
  | succ n ih =>
    intro a x
    cases x with
    | zero => simp [bytesOf]
    | succ x =>
      have hshift : a / 2 ^ 8 / 2 ^ (8 * x) = a / 2 ^ (8 * (x + 1)) := by
        rw [Nat.div_div_eq_div_mul, ← Nat.pow_add, Nat.mul_succ, Nat.add_comm]
      rw [bytesOf, List.getD_cons_succ, ih, hshift]
      simp only [Nat.add_lt_add_iff_right]

/-- An array of `n` words has the bits of its bit string below its capacity. -/
theorem getBit_ofBits {n p : Nat} (a : BitString) (hp : p < 32 * n) :
    (Memory.ofBits (4 * n) a).getBit p = BitString.getBit a p := by
  have hbyte : 8 * (p / 8) + p % 8 = p := by omega
  rw [Memory.getBit, Memory.ofBits, read_cellsOf, if_pos (Nat.zero_le _), Nat.sub_zero, getD_bytesOf, BitString.getBit]
  split
  · have hlt : p % 8 < 8 := by omega
    rw [BitVec.getLsbD_ofNat, Nat.testBit_div_two_pow, decide_eq_true hlt, Bool.true_and, Nat.add_comm, hbyte]
  · next hn =>
    have hlog : a.log2 + 1 ≤ p := by omega
    have hlt : a < 2 ^ p := Nat.lt_log2_self.trans_le (Nat.pow_le_pow_right (by omega) hlog)
    rw [Nat.testBit_lt_two_pow hlt, BitVec.getLsbD_zero]

/-! ## The padding (R169) -/

section

variable {s : State} (pad : Bool)

theorem read_paddedMbv (hv : s.vpos ≤ 16384) (a : Nat) : (s.paddedMbv pad).read a =
    if pad = true ∧ 4 * s.vpos ≤ a ∧ a < 4 * 16384 then 0#8 else s.mbv.read a := by
  cases pad with
  | false => simp [State.paddedMbv]
  | true =>
    have hend : 4 * s.vpos + 4 * (Config.mbCap - s.vpos) = 4 * 16384 := by unfold Config.mbCap; omega
    simp [State.paddedMbv, Memory.read_clear, hend]

/-- R169: below the size of the encode, the values put and zeros after them. -/
theorem readWord_paddedMbv (hv : s.vpos ≤ 16384) {i : Nat} (hi : i < s.encodeSize pad) :
    (s.paddedMbv pad).readWord i = if i < s.vpos then s.mbv.readWord i else 0#32 := by
  split
  · refine readWord_congr fun k hk => ?_
    rw [read_paddedMbv pad hv, if_neg (by omega)]
  · next hge =>
    cases pad with
    | false => exact absurd hi hge
    | true =>
      have hcap : i < 16384 := hi
      rw [← readWord_nil i]
      refine readWord_congr fun k hk => ?_
      rw [read_paddedMbv true hv, if_pos ⟨rfl, by omega, by omega⟩, Memory.read_nil]

theorem encodeSize_le (hv : s.vpos ≤ 16384) : s.encodeSize pad ≤ 16384 := by
  cases pad with
  | false => exact hv
  | true => exact le_refl _

theorem encodeInput_eq (hv : s.vpos ≤ 16384) : s.encodeInput pad =
    (List.range (s.encodeSize pad)).map fun i => if i < s.vpos then s.mbv.readWord i else 0#32 := by
  unfold State.encodeInput Memory.readWords
  refine List.map_congr_left fun i hi => ?_
  rw [Nat.zero_add, readWord_paddedMbv pad hv (List.mem_range.1 hi)]

theorem readWord_paddedMbv_eq_getD {i : Nat} (hi : i < s.encodeSize pad) :
    (s.paddedMbv pad).readWord i = (s.encodeInput pad).getD i 0#32 := by
  rw [List.getD_eq_getElem _ _ (by rwa [encodeInput_length])]
  simp [State.encodeInput, Memory.readWords]

end

/-! ## The completion writes (R188) -/

/-- R188, R89: BSIZE below TILEEND. -/
theorem mbhdr_word {bs : Nat} (h : bs ≤ 16384) (tileEnd : Bool) : BitVec.ofNat 16 (bs + tileEnd.toNat * 2 ^ 15) =
    BitVec.ofNat 16 bs ||| (if tileEnd then 0x8000#16 else 0#16) := by
  cases tileEnd with
  | false => simp
  | true =>
    have hlt : bs < 2 ^ 15 := by omega
    have hor : 2 ^ 15 ||| bs = 2 ^ 15 + bs := by
      simpa using (Nat.two_pow_add_eq_or_of_lt hlt 1).symm
    rw [Nat.add_comm, Bool.toNat_true, Nat.one_mul, ← hor, BitVec.ofNat_or, BitVec.or_comm]
    rfl

/-- R188: RESULT1 reads the NPLANES field. -/
theorem reg32_planes (n : Nat) : reg32 (n % (Config.maxPlanes + 1)) = (BitVec.ofNat 5 n).setWidth 32 := by
  apply BitVec.eq_of_toNat_eq
  simp [reg32, Config.maxPlanes]

theorem commandResult_of_firstFail {i : Instr} {s : State} {e : Err} (h : firstFail (checksOf i s) = some e) :
    commandResult i s = raiseErr e s := by
  rw [commandResult, h]

theorem commandResult_of_checks {i : Instr} {s : State} (hc : firstFail (checksOf i s) = none)
    (hl : lateError i s = none) : commandResult i s = complete (effectOf i s) := by
  rw [commandResult, hc, hl]

theorem execMbEncode_empty {s : State} (hv : s.vpos = 0) (pad tileEnd : Bool) :
    exec (.mbEncode pad tileEnd) s = .next (raiseErr ⟨.badOperand, 0⟩ s) := by
  rw [exec_eq, commandResult_of_firstFail (e := ⟨.badOperand, 0⟩)]
  simp [checksOf, hv]

theorem execMbEncode_completes {s : State} (hv : 1 ≤ s.vpos) (pad tileEnd : Bool) :
    exec (.mbEncode pad tileEnd) s =
      .next (complete (encodeWrites pad tileEnd (encodeValues s.favorTaken (s.encodeInput pad)) s)) := by
  have hchecks : firstFail (checksOf (.mbEncode pad tileEnd) s) = none := by simp [checksOf, hv]
  rw [exec_eq, commandResult_of_checks hchecks rfl, effectOf]

/-- The completion writes with their words in the terms of R188. -/
theorem encodeWrites_eq {s : State} (hv : s.vpos ≤ 16384) (pad tileEnd : Bool) {e : EncState}
    (he : numberOfWords e.cp = e.cp / 32) {t : State} (ht : t = encodeWrites pad tileEnd e s) : t =
    { s with
      mbv := t.mbv, cb := t.cb, sf := t.sf, sigt := t.sigt, reft := t.reft, sgnt := t.sgnt
      wordlen := BitVec.ofNat 16 (e.cp / 32)
      mbhdr := BitVec.ofNat 16 (s.encodeSize pad) ||| (if tileEnd then 0x8000#16 else 0#16)
      nplanes := t.nplanes
      result0 := BitVec.ofNat 32 (e.cp / 32), result1 := t.nplanes.setWidth 32
      result2 := BitVec.ofNat 32 (s.encodeSize pad)
      vpos := 0, vlim := 0, maxAbs := 0 } := by
  subst ht
  rw [← mbhdr_word (encodeSize_le pad hv), ← he]
  simp only [encodeWrites, reg32_planes]
  rfl

/-- Settles O56: the padding is a clear of MBV, the payload's length is a whole number of words below 2^32 bits, and an
array below its capacity has the bits of its bit string. -/
theorem mbEncodeResult : Obligations.MbEncodeResult := by
  unfold Obligations.MbEncodeResult
  intro s pad tileEnd
  refine ⟨fun hv => execMbEncode_empty hv pad tileEnd, fun hlo hv => ?_⟩
  intro bs vs e
  have hinput : s.encodeInput pad = vs := encodeInput_eq pad hv
  have hlen : vs.length ≤ 16384 := by
    rw [← hinput, encodeInput_length]
    exact encodeSize_le pad hv
  have hwords : numberOfWords e.cp = e.cp / 32 := numberOfWords_encodeValues_cp s.favorTaken hlen
  have hexec := execMbEncode_completes hlo pad tileEnd
  rw [hinput] at hexec
  refine ⟨_, hexec, congrArg complete (encodeWrites_eq hv pad tileEnd hwords rfl), encodeValues_cp_aligned _ _, rfl, rfl,
    rfl, rfl, rfl, fun p hp => getBit_ofBits e.cb hp, fun p hp => ?_, ⟨maxMagnitude vs, ?_, ?_⟩, fun i hi => ?_,
    fun a ha => ?_⟩
  · exact ⟨getBit_ofBits e.sigt hp, getBit_ofBits e.reft hp, getBit_ofBits e.sgnt hp⟩
  · exact isRunningMax_maxAbsAfter vs 0
  · rw [← hinput]; rfl
  · rw [← hinput]
    exact readWord_paddedMbv_eq_getD pad hi
  · exact (read_paddedMbv pad hv a).trans (if_neg ha)

end Sys2Proof.Machine
end

section
/-! The command word (30_encoding.md R71 to R76): a word is its fields, a command's fields are those of its format, and
the mask test of a row is a test of the fields. -/

namespace Sys2Proof

/-! ## A word and its fields (R71) -/

/-- R71: the number whose fields are `f`. -/
def Fields.pack (f : Fields) : Nat :=
  f.op + f.lvl * 2 ^ 8 + f.or * 2 ^ 13 + f.f1 * 2 ^ 15 + f.f2 * 2 ^ 16 + f.k * 2 ^ 17 + f.rsv * 2 ^ 23

/-- R71: every field is below its width's bound. -/
structure Fields.Fits (f : Fields) : Prop where
  op  : f.op < 2 ^ 8
  lvl : f.lvl < 2 ^ 5
  or  : f.or < 2 ^ 2
  f1  : f.f1 < 2 ^ 1
  f2  : f.f2 < 2 ^ 1
  k   : f.k < 2 ^ 6
  rsv : f.rsv < 2 ^ 9

theorem bitField_lt (w : Word) (lo width : Nat) : bitField w lo width < 2 ^ width :=
  Nat.mod_lt _ (Nat.two_pow_pos width)

theorem fieldsOf_fits (w : Word) : (fieldsOf w).Fits :=
  ⟨bitField_lt w 0 8, bitField_lt w 8 5, bitField_lt w 13 2, bitField_lt w 15 1, bitField_lt w 16 1, bitField_lt w 17 6,
    bitField_lt w 23 9⟩

theorem pack_fieldsOf (w : Word) : (fieldsOf w).pack = w.toNat := by
  have hw := w.isLt
  simp only [Fields.pack, fieldsOf, bitField]
  omega

theorem fieldsOf_pack {f : Fields} (h : f.Fits) : fieldsOf (BitVec.ofNat 32 f.pack) = f := by
  obtain ⟨op, lvl, or, f1, f2, k, rsv⟩ := f
  obtain ⟨hop, hlvl, hor, hf1, hf2, hk, hrsv⟩ := h
  simp only at hop hlvl hor hf1 hf2 hk hrsv
  simp only [Fields.pack, fieldsOf, bitField, BitVec.toNat_ofNat, Fields.mk.injEq]
  omega

theorem fieldsOf_injective {v w : Word} (h : fieldsOf v = fieldsOf w) : v = w := by
  apply BitVec.eq_of_toNat_eq
  rw [← pack_fieldsOf v, h, pack_fieldsOf]

/-! ## The formats (R74) -/

/-- Format CMD. -/
def plainFields (op : Nat) : Fields := ⟨op, 0, 0, 0, 0, 0, 0⟩

/-- Format CMD-K. -/
def countFields (op k : Nat) : Fields := ⟨op, 0, 0, 0, 0, k, 0⟩

/-- Format CMD-LVL-OR. -/
def bandFields (op lvl or : Nat) : Fields := ⟨op, lvl, or, 0, 0, 0, 0⟩

/-- Format CMD-LVL. -/
def levelFields (op lvl : Nat) : Fields := ⟨op, lvl, 0, 0, 0, 0, 0⟩

/-- Format CMD-F1-F2. -/
def flagFields (op f1 f2 : Nat) : Fields := ⟨op, 0, 0, f1, f2, 0, 0⟩

/-- R71, R74: the fields of a command's word. -/
def Instr.fields (i : Instr) : Fields :=
  match i with
  | .bsSetval k | .bsGetval k | .bsCmpval k => countFields i.opcode k
  | .sbAlloc l o | .sbFree l o | .sbWr l o | .sbRd l o | .sbQuant l o | .sbDequant l o | .sbExtract l o
  | .sbPlace l o | .sbInfo l o => bandFields i.opcode l o.code
  | .wtFwd l | .wtInv l => levelFields i.opcode l
  | .mbEncode pad tileEnd => flagFields i.opcode pad.toNat tileEnd.toNat
  | _ => plainFields i.opcode

theorem pack_fields (i : Instr) : i.fields.pack = i.opcode + i.fieldBits := by
  cases i <;>
    simp only [Instr.fields, plainFields, countFields, bandFields, levelFields, flagFields, Fields.pack, Instr.opcode,
      Instr.fieldBits] <;>
    omega

theorem encode_eq_pack (i : Instr) : encode i = BitVec.ofNat 32 i.fields.pack := by
  rw [encode, pack_fields]

theorem Orient.code_lt (o : Orient) : o.code < 2 ^ 2 := by
  cases o <;> decide

theorem Instr.opcode_lt (i : Instr) : i.opcode < 2 ^ 8 := by
  cases i <;> simp only [Instr.opcode] <;> omega

theorem Instr.fields_op (i : Instr) : i.fields.op = i.opcode := by
  cases i <;> rfl

theorem Instr.fields_rsv (i : Instr) : i.fields.rsv = 0 := by
  cases i <;> rfl

/-- R71: the fields of a well-formed command fit their widths. -/
theorem Instr.fields_fits {i : Instr} (h : i.WellFormed) : i.fields.Fits := by
  have hop : i.fields.op < 2 ^ 8 := i.fields_op ▸ i.opcode_lt
  have h0 (n : Nat) : 0 < 2 ^ n := Nat.two_pow_pos n
  cases i
  case bsSetval k | bsGetval k | bsCmpval k =>
    have hk : k < 2 ^ 6 := of_decide_eq_true h
    exact ⟨hop, h0 5, h0 2, h0 1, h0 1, hk, h0 9⟩
  case sbAlloc l o | sbFree l o | sbWr l o | sbRd l o | sbQuant l o | sbDequant l o | sbExtract l o | sbPlace l o
      | sbInfo l o =>
    have hl : l < 2 ^ 5 := of_decide_eq_true h
    exact ⟨hop, hl, o.code_lt, h0 1, h0 1, h0 6, h0 9⟩
  case wtFwd l | wtInv l =>
    have hl : l < 2 ^ 5 := of_decide_eq_true h
    exact ⟨hop, hl, h0 2, h0 1, h0 1, h0 6, h0 9⟩
  case mbEncode pad tileEnd => exact ⟨hop, h0 5, h0 2, pad.toNat_lt, tileEnd.toNat_lt, h0 6, h0 9⟩
  all_goals exact ⟨hop, h0 5, h0 2, h0 1, h0 1, h0 6, h0 9⟩

theorem fieldsOf_encode {i : Instr} (h : i.WellFormed) : fieldsOf (encode i) = i.fields := by
  rw [encode_eq_pack, fieldsOf_pack (Instr.fields_fits h)]

/-! ## Decoding of a command's fields -/

theorem orientOf_code (o : Orient) : orientOf o.code = o := by
  cases o <;> rfl

/-- The row of a command's opcode gives the command back from its fields. -/
theorem decodeRow_fields (i : Instr) : decodeRow i.fields = .ok i := by
  cases i
  case sbAlloc l o | sbFree l o | sbWr l o | sbRd l o | sbQuant l o | sbDequant l o | sbExtract l o | sbPlace l o
      | sbInfo l o =>
    simp [decodeRow, decodeBand, Instr.fields, bandFields, Instr.opcode, orientOf_code]
  case mbEncode pad tileEnd =>
    simp [decodeRow, decodeFlags, Instr.fields, flagFields, Instr.opcode]
  all_goals rfl

/-- Settles O3: the fields of a well-formed command's word are the command's, and its row reads them back. -/
theorem decodeEncode : Obligations.DecodeEncode := by
  unfold Obligations.DecodeEncode
  intro i h
  rw [decode, fieldsOf_encode h, if_pos i.fields_rsv, decodeRow_fields]

/-! ## What a word that decodes looks like (R75) -/

theorem code_orientOf {n : Nat} (h : n < 2 ^ 2) : (orientOf n).code = n := by
  obtain rfl | rfl | rfl | rfl : n = 0 ∨ n = 1 ∨ n = 2 ∨ n = 3 := by omega
  all_goals rfl

theorem toNat_beq_one {n : Nat} (h : n < 2) : (n == 1).toNat = n := by
  obtain rfl | rfl : n = 0 ∨ n = 1 := by omega
  all_goals rfl

section

variable {f : Fields} {i : Instr} (hr : f.rsv = 0)

include hr

theorem decodePlain_eq_ok {j : Instr} : decodePlain f j = .ok i ↔ f = plainFields f.op ∧ j = i := by
  obtain ⟨op, lvl, or, f1, f2, k, rsv⟩ := f
  simp only at hr
  simp only [decodePlain, plainFields, Fields.mk.injEq, hr, true_and, and_true]
  split <;> simp_all

theorem decodeK_eq_ok {mk : Nat → Instr} : decodeK f mk = .ok i ↔ f = countFields f.op f.k ∧ mk f.k = i := by
  obtain ⟨op, lvl, or, f1, f2, k, rsv⟩ := f
  simp only at hr
  simp only [decodeK, countFields, Fields.mk.injEq, hr, true_and, and_true]
  split <;> simp_all

theorem decodeBand_eq_ok {mk : Nat → Orient → Instr} :
    decodeBand f mk = .ok i ↔ f = bandFields f.op f.lvl f.or ∧ mk f.lvl (orientOf f.or) = i := by
  obtain ⟨op, lvl, or, f1, f2, k, rsv⟩ := f
  simp only at hr
  simp only [decodeBand, bandFields, Fields.mk.injEq, hr, true_and, and_true]
  split <;> simp_all

theorem decodeLevel_eq_ok {mk : Nat → Instr} :
    decodeLevel f mk = .ok i ↔ f = levelFields f.op f.lvl ∧ mk f.lvl = i := by
  obtain ⟨op, lvl, or, f1, f2, k, rsv⟩ := f
  simp only at hr
  simp only [decodeLevel, levelFields, Fields.mk.injEq, hr, true_and, and_true]
  split <;> simp_all

theorem decodeFlags_eq_ok {mk : Bool → Bool → Instr} :
    decodeFlags f mk = .ok i ↔ f = flagFields f.op f.f1 f.f2 ∧ mk (f.f1 == 1) (f.f2 == 1) = i := by
  obtain ⟨op, lvl, or, f1, f2, k, rsv⟩ := f
  simp only at hr
  simp only [decodeFlags, flagFields, Fields.mk.injEq, hr, true_and, and_true]
  split <;> simp_all

/-- A row that takes the fields of a word reads a well-formed command with these fields. -/
theorem decodeRow_eq_ok (hf : f.Fits) (h : decodeRow f = .ok i) : i.WellFormed ∧ f = i.fields := by
  unfold decodeRow at h
  split at h <;> rename_i hop
  case h_5 | h_6 | h_7 =>
    obtain ⟨heq, rfl⟩ := (decodeK_eq_ok hr).1 h
    exact ⟨decide_eq_true hf.k, heq.trans (by rw [hop]; rfl)⟩
  case h_12 | h_13 | h_14 | h_15 | h_16 | h_17 | h_18 | h_19 | h_20 =>
    obtain ⟨heq, rfl⟩ := (decodeBand_eq_ok hr).1 h
    exact ⟨decide_eq_true hf.lvl, heq.trans (by rw [hop, Instr.fields, code_orientOf hf.or]; rfl)⟩
  case h_22 | h_23 =>
    obtain ⟨heq, rfl⟩ := (decodeLevel_eq_ok hr).1 h
    exact ⟨decide_eq_true hf.lvl, heq.trans (by rw [hop]; rfl)⟩
  case h_27 =>
    obtain ⟨heq, rfl⟩ := (decodeFlags_eq_ok hr).1 h
    exact ⟨rfl, heq.trans (by rw [hop, Instr.fields, toNat_beq_one hf.f1, toNat_beq_one hf.f2]; rfl)⟩
  case h_29 => cases h
  all_goals
    obtain ⟨heq, rfl⟩ := (decodePlain_eq_ok hr).1 h
    exact ⟨rfl, heq.trans (by rw [hop]; rfl)⟩

end

theorem decode_eq_ok {w : Word} {i : Instr} (h : decode w = .ok i) : i.WellFormed ∧ fieldsOf w = i.fields := by
  unfold decode at h
  split at h
  · next hr => exact decodeRow_eq_ok hr (fieldsOf_fits w) h
  · cases h

/-- Settles O4: the word and the encoding have the same fields, and a word is its fields. -/
theorem encodeDecode : Obligations.EncodeDecode := by
  unfold Obligations.EncodeDecode
  intro w i h
  obtain ⟨hw, hf⟩ := decode_eq_ok h
  exact ⟨hw, fieldsOf_injective ((fieldsOf_encode hw).trans hf.symm)⟩

/-! ## The mask test of a row (R75) -/

/-- The fields that two words have in common, bit by bit. -/
def Fields.inter (f g : Fields) : Fields :=
  ⟨f.op &&& g.op, f.lvl &&& g.lvl, f.or &&& g.or, f.f1 &&& g.f1, f.f2 &&& g.f2, f.k &&& g.k, f.rsv &&& g.rsv⟩

theorem bitField_and (v w : Word) (lo width : Nat) :
    bitField (v &&& w) lo width = bitField v lo width &&& bitField w lo width := by
  simp only [bitField, BitVec.toNat_and, Nat.and_div_two_pow, Nat.and_mod_two_pow]

theorem fieldsOf_and (v w : Word) : fieldsOf (v &&& w) = (fieldsOf v).inter (fieldsOf w) := by
  simp only [fieldsOf, Fields.inter, bitField_and]

/-- R74: the mask of a command's row, all ones in OP, in RSV and in the fields its format does not use. -/
def Instr.rowMask : Instr → Word
  | .bsSetval _ | .bsGetval _ | .bsCmpval _ => 0xFF81FFFF#32
  | .sbAlloc _ _ | .sbFree _ _ | .sbWr _ _ | .sbRd _ _ | .sbQuant _ _ | .sbDequant _ _ | .sbExtract _ _
  | .sbPlace _ _ | .sbInfo _ _ => 0xFFFF80FF#32
  | .wtFwd _ | .wtInv _ => 0xFFFFE0FF#32
  | .mbEncode _ _ => 0xFFFE7FFF#32
  | _ => 0xFFFFFFFF#32

/-- R74: the row of a command in opcode_table.json. -/
def Instr.row (i : Instr) : Word × Word := (i.rowMask, BitVec.ofNat 32 i.opcode)

theorem Instr.row_mem (i : Instr) : i.row ∈ legalPatterns := by
  cases i <;> simp [Instr.row, Instr.rowMask, Instr.opcode, legalPatterns]

/-- One command of each row, in the table's order. -/
def rowCommands : List Instr :=
  [.nop, .bsSetbit, .bsClrbit, .bsGetbit, .bsSetval 0, .bsGetval 0, .bsCmpval 0, .bsSeek0, .bsSeek1, .bsAlign,
    .bsNwords, .sbAlloc 0 .ll, .sbFree 0 .ll, .sbWr 0 .ll, .sbRd 0 .ll, .sbQuant 0 .ll, .sbDequant 0 .ll,
    .sbExtract 0 .ll, .sbPlace 0 .ll, .sbInfo 0 .ll, .wtInit, .wtFwd 0, .wtInv 0, .mbClear, .mbPut, .mbGet,
    .mbEncode false false, .mbDecode]

theorem legalPatterns_eq : legalPatterns = rowCommands.map Instr.row := rfl

theorem toNat_opcode (i : Instr) : (BitVec.ofNat 32 i.opcode).toNat = i.opcode := by
  have hop := i.opcode_lt
  rw [BitVec.toNat_ofNat]
  omega

/-- The fields of a row's match word: the opcode alone. -/
theorem fieldsOf_opcode (i : Instr) : fieldsOf (BitVec.ofNat 32 i.opcode) = plainFields i.opcode := by
  have hop := i.opcode_lt
  have hpack : i.opcode = (plainFields i.opcode).pack := by simp only [plainFields, Fields.pack]; omega
  have h0 (n : Nat) : 0 < 2 ^ n := Nat.two_pow_pos n
  conv_lhs => rw [hpack]
  exact fieldsOf_pack ⟨hop, h0 5, h0 2, h0 1, h0 1, h0 6, h0 9⟩

theorem and_ones {n k : Nat} (h : n < 2 ^ k) : n &&& (2 ^ k - 1) = n := Nat.and_two_pow_sub_one_of_lt_two_pow h

section

variable (w : Word)

theorem fieldsOf_and_countMask : fieldsOf (w &&& 0xFF81FFFF#32) = { fieldsOf w with k := 0 } := by
  have h := fieldsOf_fits w
  have hmask : fieldsOf 0xFF81FFFF#32 = ⟨2 ^ 8 - 1, 2 ^ 5 - 1, 2 ^ 2 - 1, 2 ^ 1 - 1, 2 ^ 1 - 1, 0, 2 ^ 9 - 1⟩ := rfl
  simp only [fieldsOf_and, hmask, Fields.inter, Nat.and_zero, and_ones h.op,
    and_ones h.lvl, and_ones h.or, and_ones h.f1, and_ones h.f2, and_ones h.rsv]

theorem fieldsOf_and_bandMask : fieldsOf (w &&& 0xFFFF80FF#32) = { fieldsOf w with lvl := 0, or := 0 } := by
  have h := fieldsOf_fits w
  have hmask : fieldsOf 0xFFFF80FF#32 = ⟨2 ^ 8 - 1, 0, 0, 2 ^ 1 - 1, 2 ^ 1 - 1, 2 ^ 6 - 1, 2 ^ 9 - 1⟩ := rfl
  simp only [fieldsOf_and, hmask, Fields.inter, Nat.and_zero, and_ones h.op,
    and_ones h.f1, and_ones h.f2, and_ones h.k, and_ones h.rsv]

theorem fieldsOf_and_levelMask : fieldsOf (w &&& 0xFFFFE0FF#32) = { fieldsOf w with lvl := 0 } := by
  have h := fieldsOf_fits w
  have hmask : fieldsOf 0xFFFFE0FF#32 = ⟨2 ^ 8 - 1, 0, 2 ^ 2 - 1, 2 ^ 1 - 1, 2 ^ 1 - 1, 2 ^ 6 - 1, 2 ^ 9 - 1⟩ := rfl
  simp only [fieldsOf_and, hmask, Fields.inter, Nat.and_zero, and_ones h.op,
    and_ones h.or, and_ones h.f1, and_ones h.f2, and_ones h.k, and_ones h.rsv]

theorem fieldsOf_and_flagMask : fieldsOf (w &&& 0xFFFE7FFF#32) = { fieldsOf w with f1 := 0, f2 := 0 } := by
  have h := fieldsOf_fits w
  have hmask : fieldsOf 0xFFFE7FFF#32 = ⟨2 ^ 8 - 1, 2 ^ 5 - 1, 2 ^ 2 - 1, 0, 0, 2 ^ 6 - 1, 2 ^ 9 - 1⟩ := rfl
  simp only [fieldsOf_and, hmask, Fields.inter, Nat.and_zero, and_ones h.op,
    and_ones h.lvl, and_ones h.or, and_ones h.k, and_ones h.rsv]

theorem and_plainMask : w &&& 0xFFFFFFFF#32 = w := BitVec.and_allOnes

end

/-- R75: a command's word matches the command's row. -/
theorem encode_and_rowMask {i : Instr} (h : i.WellFormed) : encode i &&& i.rowMask = BitVec.ofNat 32 i.opcode := by
  apply fieldsOf_injective
  rw [fieldsOf_opcode]
  cases i
  case bsSetval | bsGetval | bsCmpval => exact (fieldsOf_and_countMask _).trans (by rw [fieldsOf_encode h]; rfl)
  case sbAlloc | sbFree | sbWr | sbRd | sbQuant | sbDequant | sbExtract | sbPlace | sbInfo =>
    exact (fieldsOf_and_bandMask _).trans (by rw [fieldsOf_encode h]; rfl)
  case wtFwd | wtInv => exact (fieldsOf_and_levelMask _).trans (by rw [fieldsOf_encode h]; rfl)
  case mbEncode => exact (fieldsOf_and_flagMask _).trans (by rw [fieldsOf_encode h]; rfl)
  all_goals exact (congrArg fieldsOf (and_plainMask _)).trans (fieldsOf_encode h)

/-! ## The table and the decoder (R75) -/

section

variable {f : Fields} {op : Nat}

theorem eq_countFields (h : { f with k := 0 } = plainFields op) : f = countFields op f.k := by
  cases f
  simp_all [plainFields, countFields]

theorem eq_bandFields (h : { f with lvl := 0, or := 0 } = plainFields op) : f = bandFields op f.lvl f.or := by
  cases f
  simp_all [plainFields, bandFields]

theorem eq_levelFields (h : { f with lvl := 0 } = plainFields op) : f = levelFields op f.lvl := by
  cases f
  simp_all [plainFields, levelFields]

theorem eq_flagFields (h : { f with f1 := 0, f2 := 0 } = plainFields op) : f = flagFields op f.f1 f.f2 := by
  cases f
  simp_all [plainFields, flagFields]

end

theorem decode_of_fields {w : Word} {f : Fields} {i : Instr} (hf : fieldsOf w = f) (h0 : f.rsv = 0)
    (h : decodeRow f = .ok i) : decode w = .ok i := by
  rw [decode, hf, if_pos h0, h]

/-- A word that matches a command's row decodes to a command of that row. -/
theorem decode_of_row {w : Word} {i : Instr} (h : w &&& i.rowMask = BitVec.ofNat 32 i.opcode) :
    ∃ j, decode w = .ok j ∧ j.opcode = i.opcode := by
  have hf : fieldsOf (w &&& i.rowMask) = plainFields i.opcode := by rw [h, fieldsOf_opcode]
  cases i
  case bsSetval | bsGetval | bsCmpval =>
    exact ⟨_, decode_of_fields (eq_countFields ((fieldsOf_and_countMask w).symm.trans hf)) rfl rfl, rfl⟩
  case sbAlloc | sbFree | sbWr | sbRd | sbQuant | sbDequant | sbExtract | sbPlace | sbInfo =>
    exact ⟨_, decode_of_fields (eq_bandFields ((fieldsOf_and_bandMask w).symm.trans hf)) rfl rfl, rfl⟩
  case wtFwd | wtInv =>
    exact ⟨_, decode_of_fields (eq_levelFields ((fieldsOf_and_levelMask w).symm.trans hf)) rfl rfl, rfl⟩
  case mbEncode =>
    exact ⟨_, decode_of_fields (eq_flagFields ((fieldsOf_and_flagMask w).symm.trans hf)) rfl rfl, rfl⟩
  all_goals exact ⟨_, decode_of_fields ((congrArg fieldsOf (and_plainMask w)).symm.trans hf) rfl rfl, rfl⟩

/-- A word that matches no row does not decode. -/
theorem decode_error_of_no_row {w : Word} (h : ∀ r ∈ legalPatterns, w &&& r.1 ≠ r.2) : ∃ e, decode w = .error e := by
  cases hd : decode w with
  | error e => exact ⟨e, rfl⟩
  | ok i =>
    obtain ⟨hw, henc⟩ := encodeDecode w i hd
    exact absurd (henc ▸ encode_and_rowMask hw) (h _ i.row_mem)

/-- Settles O2: a row's mask leaves out exactly the fields of the row's format. -/
theorem decodeRule : Obligations.DecodeRule := by
  unfold Obligations.DecodeRule
  intro s
  refine ⟨fun r hr hmatch => ?_, fun hnone => ?_⟩
  · rw [legalPatterns_eq, List.mem_map] at hr
    obtain ⟨i, -, rfl⟩ := hr
    obtain ⟨j, hj, hop⟩ := decode_of_row hmatch
    obtain ⟨hw, henc⟩ := encodeDecode s.cmd j hj
    exact ⟨j, hj, hop.trans (toNat_opcode i).symm, hw, henc, by rw [Machine.engineStep, hj]⟩
  · obtain ⟨e, he⟩ := decode_error_of_no_row hnone
    rw [Machine.engineStep, he]
    rfl

/-! ## Examples and NOP (R83, R84) -/

/-- Settles O5: the examples are words of R84, which the decoder evaluates. -/
theorem assembledExamples : Obligations.AssembledExamples := by
  unfold Obligations.AssembledExamples
  decide

/-- Settles O30: NOP has no check and no effect, and a word that decodes is the encoding of its command. -/
theorem nopResult : Obligations.NopResult := by
  unfold Obligations.NopResult
  refine ⟨fun s => Machine.command_completes (cs := []) (fun t => t) nofun, fun w => ⟨fun h => ?_, fun h => ?_⟩⟩
  · obtain ⟨-, henc⟩ := encodeDecode w .nop h
    exact henc.symm
  · exact h ▸ decodeEncode .nop rfl

end Sys2Proof
end

section
/-! Lists of bits at a position, in a bit string and as what a reader answers (20_memory.md R55; 30_encoding.md R86). -/

namespace Sys2Proof.Machine

/-! ## Bits at a position -/

/-- `P` holds of every bit of the list at its position, the first at `p`. -/
def StandsAt (P : Nat → Bool → Prop) (p : Nat) (l : List Bool) : Prop := ∀ x ∈ l.zipIdx p, P x.2 x.1

/-- The bits `l` stand in the bit string from `p` on. -/
abbrev Holds (a : BitString) : Nat → List Bool → Prop := StandsAt fun q b => BitString.getBit a q = b

/-- A reader answers the bits `l` from `p` on. -/
abbrev Reads (rd : Nat → Except Err Bool) : Nat → List Bool → Prop := StandsAt fun q b => rd q = .ok b

/-- The fields of a layout stand in the bit string, list by list. -/
theorem carries_iff (bits : BitString) (l : Layout) : carries bits l ↔ ∀ f ∈ l.fields, Holds bits f.pos f.bits :=
  Iff.rfl

section

variable {P Q : Nat → Bool → Prop} {p : Nat} {b : Bool} {l m : List Bool}

@[simp] theorem standsAt_nil : StandsAt P p [] := by simp [StandsAt]

@[simp] theorem standsAt_cons : StandsAt P p (b :: l) ↔ P p b ∧ StandsAt P (p + 1) l := by
  simp [StandsAt, List.zipIdx_cons]

@[simp] theorem standsAt_append : StandsAt P p (l ++ m) ↔ StandsAt P p l ∧ StandsAt P (p + l.length) m := by
  simp only [StandsAt, List.zipIdx_append, List.forall_mem_append]

theorem StandsAt.imp (h : StandsAt P p l) (hPQ : ∀ q b, p ≤ q → q < p + l.length → P q b → Q q b) : StandsAt Q p l :=
  fun x hx => hPQ x.2 x.1 (List.le_snd_of_mem_zipIdx hx) (by have := List.snd_lt_add_of_mem_zipIdx hx; omega) (h x hx)

theorem standsAt_of_getD (h : ∀ i, i < l.length → P (p + i) (l.getD i false)) : StandsAt P p l := by
  rintro ⟨b, q⟩ hx
  obtain ⟨hle, hlt, hb⟩ := List.mem_zipIdx hx
  have hq := h (q - p) (by omega)
  rwa [Nat.add_sub_cancel' hle, List.getD_eq_getElem _ _ (by omega), ← hb] at hq

end

/-! ## Writes -/

/-- Write a list of bits from `p` on. -/
def writeBits (a : BitString) (p : Nat) (l : List Bool) : BitString := BitString.setVal a p (bitsNat l) l.length

theorem testBit_writeBits (a : BitString) (p q : Nat) (l : List Bool) : (writeBits a p l).testBit q =
    if p ≤ q ∧ q < p + l.length then l.getD (q - p) false else a.testBit q := by
  rw [writeBits, BitString.testBit_setVal, testBit_bitsNat]

@[simp] theorem writeBits_nil (a : BitString) (p : Nat) : writeBits a p [] = a := by
  apply Nat.eq_of_testBit_eq
  intro q
  rw [testBit_writeBits, if_neg (by simp)]

theorem putBit_eq_writeBits (a : BitString) (p : Nat) (b : Bool) : BitString.putBit a p b = writeBits a p [b] := rfl

@[simp] theorem length_fieldBits (v k : Nat) : (fieldBits v k).length = k := by simp [fieldBits]

theorem getD_fieldBits (v : Nat) {k i : Nat} (h : i < k) : (fieldBits v k).getD i false = v.testBit i := by
  rw [List.getD_eq_getElem _ _ (by simpa using h)]
  simp [fieldBits]

theorem fieldBits_succ (v k : Nat) : fieldBits v (k + 1) = v.testBit 0 :: fieldBits (v / 2) k := by
  simp only [fieldBits, List.range_succ_eq_map, List.map_cons, List.map_map]
  congr 1
  exact List.map_congr_left fun i _ => Nat.testBit_succ v i

theorem setVal_eq_writeBits (a : BitString) (p v k : Nat) :
    BitString.setVal a p v k = writeBits a p (fieldBits v k) := by
  apply Nat.eq_of_testBit_eq
  intro q
  rw [testBit_writeBits, BitString.testBit_setVal, length_fieldBits]
  split
  · next h => rw [getD_fieldBits v (by omega)]
  · rfl

/-- Two writes of which the second starts where the first ends are one. -/
theorem writeBits_writeBits (a : BitString) (p : Nat) (l m : List Bool) :
    writeBits (writeBits a p l) (p + l.length) m = writeBits a p (l ++ m) := by
  apply Nat.eq_of_testBit_eq
  intro q
  simp only [testBit_writeBits, List.length_append]
  rcases lt_or_ge q (p + l.length) with h | h
  · rw [if_neg (by omega)]
    split
    · rw [if_pos (by omega), List.getD_append _ _ _ _ (by omega)]
    · rw [if_neg (by omega)]
  · rw [if_neg (c := p ≤ q ∧ q < p + l.length) (by omega)]
    split
    · rw [if_pos (by omega), List.getD_append_right _ _ _ _ (by omega), Nat.sub_add_eq]
    · rw [if_neg (by omega)]

theorem holds_writeBits (a : BitString) (p : Nat) (l : List Bool) : Holds (writeBits a p l) p l :=
  standsAt_of_getD fun i hi => by
    rw [BitString.getBit, testBit_writeBits, if_pos (by omega), Nat.add_sub_cancel_left]

/-- Nothing changes outside the positions from `lo` up to `hi`. -/
def ChangesWithin (lo hi : Nat) (a a' : BitString) : Prop :=
  ∀ q, q < lo ∨ hi ≤ q → BitString.getBit a' q = BitString.getBit a q

namespace ChangesWithin

variable {lo hi lo' hi' p : Nat} {a a' a'' : BitString}

theorem refl (lo hi : Nat) (a : BitString) : ChangesWithin lo hi a a := fun _ _ => rfl

theorem trans (h : ChangesWithin lo hi a a') (h' : ChangesWithin lo hi a' a'') : ChangesWithin lo hi a a'' :=
  fun q hq => (h' q hq).trans (h q hq)

theorem mono (h : ChangesWithin lo hi a a') (hlo : lo' ≤ lo) (hhi : hi ≤ hi') : ChangesWithin lo' hi' a a' :=
  fun q hq => h q (by omega)

theorem setVal (a : BitString) (p v k : Nat) : ChangesWithin p (p + k) a (BitString.setVal a p v k) := fun q hq => by
  rw [BitString.getBit, BitString.testBit_setVal, if_neg (by omega), BitString.getBit]

theorem writeBits (a : BitString) (p : Nat) (l : List Bool) : ChangesWithin p (p + l.length) a (writeBits a p l) :=
  setVal a p _ _

/-- Bits outside the changed positions stay. -/
theorem holds (h : ChangesWithin lo hi a a') {l : List Bool} (hp : p + l.length ≤ lo ∨ hi ≤ p) (hl : Holds a p l) :
    Holds a' p l :=
  hl.imp fun q _ hge hlt hq => (h q (by omega)).trans hq

end ChangesWithin

/-- Bits below `2 ^ n` and changes below position `n` give bits below `2 ^ n`. -/
theorem lt_two_pow_of_changesWithin {lo n : Nat} {a a' : BitString} (h : ChangesWithin lo n a a') (ha : a < 2 ^ n) :
    a' < 2 ^ n :=
  Nat.lt_pow_two_of_testBit a' fun q hq =>
    (h q (.inr hq)).trans (Nat.testBit_lt_two_pow (ha.trans_le (Nat.pow_le_pow_right (by omega) hq)))

/-! ## Numbers read bit by bit (R95) -/

theorem mod_two_pow_succ (v k : Nat) : v % 2 ^ (k + 1) = (v.testBit 0).toNat + 2 * (v / 2 % 2 ^ k) := by
  rw [Nat.pow_succ', Nat.mod_mul, Nat.toNat_testBit]
  simp

theorem getVal_of_holds {a : BitString} (k : Nat) : ∀ {p v : Nat}, Holds a p (fieldBits v k) →
    getVal (BitString.getBit a) p k = v % 2 ^ k := by
  induction k with
  | zero => intro p v _; simp [getVal, Nat.mod_one]
  | succ k ih =>
    intro p v h
    rw [fieldBits_succ] at h
    obtain ⟨hbit, hrest⟩ := standsAt_cons.1 h
    rw [getVal, hbit, ih hrest, mod_two_pow_succ]

theorem rdVal_of_reads {rd : Nat → Except Err Bool} (k : Nat) : ∀ {p v : Nat}, Reads rd p (fieldBits v k) →
    rdVal rd p k = .ok (v % 2 ^ k) := by
  induction k with
  | zero => intro p v _; simp [rdVal, Nat.mod_one]
  | succ k ih =>
    intro p v h
    rw [fieldBits_succ] at h
    obtain ⟨hbit, hrest⟩ := standsAt_cons.1 h
    rw [rdVal, hbit, ih hrest, mod_two_pow_succ]

end Sys2Proof.Machine
end

section
/-! The two run-length codes of the format (43_mb_encoder.md R176, R177, R180): their first symbol, and their length. -/

namespace Sys2Proof.Machine

/-! ## The first symbol of a code -/

/-- R176, R177: the first symbol of a significance code stands for a full run of zeros, for zeros and a significant
value, or for the zeros at the end. -/
theorem rlSigCode_symbol (b k : Nat) (vs : List Word) : ∀ count, count < 2 ^ k →
    (∃ zs rest, vs = zs ++ rest ∧ (∀ z ∈ zs, planeBit b z = false) ∧ count + zs.length = 2 ^ k ∧
      rlSigCode b k count vs = false :: rlSigCode b (afterFullRun k) 0 rest) ∨
    (∃ zs v rest, vs = zs ++ v :: rest ∧ (∀ z ∈ zs, planeBit b z = false) ∧ planeBit b v = true ∧
      count + zs.length < 2 ^ k ∧
      rlSigCode b k count vs =
        true :: fieldBits (count + zs.length) k ++ decide (s32 v < 0) :: rlSigCode b (k - 1) 0 rest) ∨
    ((∀ z ∈ vs, planeBit b z = false) ∧ count + vs.length < 2 ^ k ∧
      rlSigCode b k count vs = true :: fieldBits (count + vs.length) k ++ [true]) := by
  induction vs with
  | nil => exact fun count h => .inr (.inr ⟨nofun, h, rfl⟩)
  | cons v t ih =>
    intro count h
    rw [rlSigCode]
    split
    · next hv => exact .inr (.inl ⟨[], v, t, rfl, nofun, hv, h, rfl⟩)
    · next hv =>
      rw [Bool.not_eq_true] at hv
      split
      · next hfull => exact .inl ⟨[v], t, rfl, by simpa using hv, hfull, rfl⟩
      · have hlen (n : Nat) : count + 1 + n = count + (n + 1) := by omega
        rcases ih (count + 1) (by omega) with ⟨zs, rest, rfl, hz, hn, hc⟩ | ⟨zs, w, rest, rfl, hz, hw, hn, hc⟩ |
          ⟨hz, hn, hc⟩
        · exact .inl ⟨v :: zs, rest, rfl, List.forall_mem_cons.2 ⟨hv, hz⟩, (hlen _).symm.trans hn, hc⟩
        · rw [hlen] at hn hc
          exact .inr (.inl ⟨v :: zs, w, rest, rfl, List.forall_mem_cons.2 ⟨hv, hz⟩, hw, hn, hc⟩)
        · rw [hlen] at hn hc
          exact .inr (.inr ⟨List.forall_mem_cons.2 ⟨hv, hz⟩, hn, hc⟩)

/-- R180: the first symbol of a sign code stands for a full run of negative signs, for negative signs and a positive
one, or for the negative signs at the end. -/
theorem rlSignCode_symbol (k : Nat) (signs : List Bool) : ∀ count, count < 2 ^ k →
    (∃ n rest, signs = List.replicate n true ++ rest ∧ count + n = 2 ^ k ∧
      rlSignCode k count signs = true :: rlSignCode (afterFullRun k) 0 rest) ∨
    (∃ n rest, signs = List.replicate n true ++ false :: rest ∧ count + n < 2 ^ k ∧
      rlSignCode k count signs = false :: fieldBits (count + n) k ++ rlSignCode (k - 1) 0 rest) ∨
    (∃ n, signs = List.replicate n true ∧ count + n < 2 ^ k ∧
      rlSignCode k count signs = if count + n = 0 then [] else false :: fieldBits (count + n) k) := by
  induction signs with
  | nil => exact fun count h => .inr (.inr ⟨0, rfl, h, rfl⟩)
  | cons s t ih =>
    intro count h
    cases s with
    | false => exact .inr (.inl ⟨0, t, rfl, h, rfl⟩)
    | true =>
      rw [rlSignCode]
      split
      · next hfull => exact .inl ⟨1, t, rfl, hfull, rfl⟩
      · have hlen (n : Nat) : count + 1 + n = count + (n + 1) := by omega
        rcases ih (count + 1) (by omega) with ⟨n, rest, rfl, hn, hc⟩ | ⟨n, rest, rfl, hn, hc⟩ | ⟨n, rfl, hn, hc⟩
        all_goals rw [hlen] at hn
        · exact .inl ⟨n + 1, rest, rfl, hn, hc⟩
        · rw [hlen] at hc
          exact .inr (.inl ⟨n + 1, rest, rfl, hn, hc⟩)
        · rw [hlen] at hc
          exact .inr (.inr ⟨n + 1, rfl, hn, hc⟩)

/-! ## The length of a code (R190) -/

theorem two_pow_afterFullRun_le (k : Nat) : 2 ^ afterFullRun k ≤ 2 ^ k * 2 := by
  rw [← Nat.pow_succ]
  exact Nat.pow_le_pow_right (by omega) (Nat.min_le_left _ _)

theorem two_pow_pred_le (k : Nat) : 2 ^ (k - 1) ≤ 2 ^ k := Nat.pow_le_pow_right (by omega) (Nat.sub_le k 1)

theorem le_of_two_pow_lt {k n : Nat} (h : 2 ^ k < 2 ^ (n + 1)) : k ≤ n :=
  Nat.le_of_lt_succ ((Nat.pow_lt_pow_iff_right (by omega)).1 h)

/-- A significance code takes at most 16 bits for each value: a run of 2^14 zeros has taken as many values. -/
theorem length_rlSigCode_le (b : Nat) (vs : List Word) : ∀ k count, 2 ^ k + count + vs.length < 2 ^ 15 →
    (rlSigCode b k count vs).length ≤ 16 * vs.length + 16 := by
  induction vs with
  | nil =>
    intro k count h
    have hk : k ≤ 14 := le_of_two_pow_lt (by omega)
    simp [rlSigCode]
    omega
  | cons v t ih =>
    intro k count h
    have hk : k ≤ 14 := le_of_two_pow_lt (by omega)
    rw [List.length_cons] at h
    rw [rlSigCode]
    split
    · have := ih (k - 1) 0 (by have := two_pow_pred_le k; omega)
      simp
      omega
    · split
      · have := ih (afterFullRun k) 0 (by have := two_pow_afterFullRun_le k; omega)
        simp
        omega
      · have := ih k (count + 1) (by omega)
        simp
        omega

/-- A sign code takes at most 16 bits for each sign. -/
theorem length_rlSignCode_le (signs : List Bool) : ∀ k count, 2 ^ k + count + signs.length < 2 ^ 15 →
    (rlSignCode k count signs).length ≤ 16 * signs.length + 16 := by
  induction signs with
  | nil =>
    intro k count h
    have hk : k ≤ 14 := le_of_two_pow_lt (by omega)
    rw [rlSignCode]
    split
    · exact Nat.zero_le _
    · simp
      omega
  | cons s t ih =>
    intro k count h
    have hk : k ≤ 14 := le_of_two_pow_lt (by omega)
    rw [List.length_cons] at h
    cases s with
    | false =>
      have := ih (k - 1) 0 (by have := two_pow_pred_le k; omega)
      simp [rlSignCode]
      omega
    | true =>
      rw [rlSignCode]
      split
      · have := ih (afterFullRun k) 0 (by have := two_pow_afterFullRun_le k; omega)
        simp
        omega
      · have := ih k (count + 1) (by omega)
        simp
        omega

end Sys2Proof.Machine
end

section
/-! The payload format: what a plane holds, how long its parts are, and where they lie (30_encoding.md R85 to R87;
43_mb_encoder.md R175, R178, R181, R190). -/

namespace Sys2Proof.Machine

/-! ## What a plane holds (R175) -/

section

variable (b : Nat) (v : Word) (vs : List Word)

/-- The magnitude's bit at plane `b` is what `2 ^ b` adds to `2 ^ (b + 1)`. -/
theorem two_pow_le_iff (m b : Nat) : 2 ^ b ≤ m ↔ 2 ^ (b + 1) ≤ m ∨ m.testBit b = true := by
  constructor
  · intro h
    rcases lt_or_ge m (2 ^ (b + 1)) with hlt | hge
    · refine .inr ?_
      obtain ⟨j, rfl⟩ := Nat.exists_eq_add_of_le h
      rw [Nat.testBit_two_pow_add_eq, Nat.testBit_lt_two_pow (by rw [Nat.pow_succ] at hlt; omega)]
      rfl
    · exact .inl hge
  · rintro (h | h)
    · exact (Nat.pow_le_pow_right (by omega) (Nat.le_succ b)).trans h
    · exact Nat.ge_two_pow_of_testBit h

theorem newcomers_cons_of_significant {b : Nat} {v : Word} (h : significantBefore b v = true) :
    newcomers b (v :: vs) = newcomers b vs := by simp [newcomers, h]

theorem newcomers_cons_of_not {b : Nat} {v : Word} (h : significantBefore b v = false) :
    newcomers b (v :: vs) = v :: newcomers b vs := by simp [newcomers, h]

theorem refinementBits_cons_of_significant {b : Nat} {v : Word} (h : significantBefore b v = true) :
    refinementBits b (v :: vs) = planeBit b v :: refinementBits b vs := by simp [refinementBits, h]

theorem refinementBits_cons_of_not {b : Nat} {v : Word} (h : significantBefore b v = false) :
    refinementBits b (v :: vs) = refinementBits b vs := by simp [refinementBits, h]

theorem sigBits_cons_of_significant {b : Nat} {v : Word} (h : significantBefore b v = true) :
    sigBits b (v :: vs) = sigBits b vs := by rw [sigBits, newcomers_cons_of_significant vs h, sigBits]

theorem sigBits_cons_of_not {b : Nat} {v : Word} (h : significantBefore b v = false) :
    sigBits b (v :: vs) = planeBit b v :: sigBits b vs := by
  rw [sigBits, newcomers_cons_of_not vs h, List.map_cons, sigBits]

theorem signBits_cons_of_significant {b : Nat} {v : Word} (h : significantBefore b v = true) :
    signBits b (v :: vs) = signBits b vs := by rw [signBits, newcomers_cons_of_significant vs h, signBits]

theorem signBits_cons_of_one {b : Nat} {v : Word} (h : significantBefore b v = false) (hv : planeBit b v = true) :
    signBits b (v :: vs) = decide (s32 v < 0) :: signBits b vs := by
  rw [signBits, newcomers_cons_of_not vs h, List.filter_cons_of_pos hv, List.map_cons, signBits]

theorem signBits_cons_of_zero {b : Nat} {v : Word} (h : significantBefore b v = false) (hv : planeBit b v = false) :
    signBits b (v :: vs) = signBits b vs := by
  rw [signBits, newcomers_cons_of_not vs h, List.filter_cons_of_neg (by simp [hv]), signBits]

@[simp] theorem length_sigBits : (sigBits b vs).length = (newcomers b vs).length := List.length_map _

theorem length_newcomers_le : (newcomers b vs).length ≤ vs.length := List.length_filter_le _ _

theorem length_signBits_le : (signBits b vs).length ≤ vs.length := by
  rw [signBits, List.length_map]
  exact (List.length_filter_le _ _).trans (length_newcomers_le b vs)

/-- R183: every value is a newcomer or has a refinement bit. -/
theorem length_newcomers_add_refinementBits :
    (newcomers b vs).length + (refinementBits b vs).length = vs.length := by
  rw [refinementBits, List.length_map, newcomers, ← List.countP_eq_length_filter, ← List.countP_eq_length_filter,
    Nat.add_comm]
  simpa using (List.length_eq_countP_add_countP (significantBefore b) (l := vs)).symm

/-- The number of values of magnitude at least `2 ^ n`. -/
def significantCount (n : Nat) (vs : List Word) : Nat := vs.countP fun v => decide (2 ^ n ≤ absCoef v)

theorem significantCount_le (n : Nat) (vs : List Word) : significantCount n vs ≤ vs.length := List.countP_le_length

theorem significantCount_cons (n : Nat) (v : Word) (vs : List Word) :
    significantCount n (v :: vs) = significantCount n vs + if 2 ^ n ≤ absCoef v then 1 else 0 := by
  simp [significantCount, List.countP_cons]

/-- R190: a value has a sign bit in one plane only. -/
theorem significantCount_succ_add_signBits :
    significantCount (b + 1) vs + (signBits b vs).length = significantCount b vs := by
  induction vs with
  | nil => rfl
  | cons v t ih =>
    have hiff := two_pow_le_iff (absCoef v) b
    rw [significantCount_cons, significantCount_cons, ← ih]
    cases hs : significantBefore b v with
    | true =>
      have hhigh : 2 ^ (b + 1) ≤ absCoef v := of_decide_eq_true hs
      rw [signBits_cons_of_significant t hs, if_pos hhigh, if_pos (hiff.2 (.inl hhigh))]
      omega
    | false =>
      have hhigh : ¬ 2 ^ (b + 1) ≤ absCoef v := of_decide_eq_false hs
      cases hv : planeBit b v with
      | true =>
        rw [signBits_cons_of_one t hs hv, if_neg hhigh, if_pos (hiff.2 (.inr hv)), List.length_cons]
        omega
      | false =>
        have hlow : ¬ 2 ^ b ≤ absCoef v := fun hle => (hiff.1 hle).elim hhigh (Bool.eq_false_iff.1 hv)
        rw [signBits_cons_of_zero t hs hv, if_neg hhigh, if_neg hlow]
        omega

end

/-! ## Where the parts of a plane lie (R86) -/

theorem alignWordPos_le (p : Nat) : alignWordPos p ≤ p + 31 := by
  unfold alignWordPos
  omega

theorem le_alignWordPos {p : Nat} (h : p + 31 < 2 ^ 32) : p ≤ alignWordPos p := by
  unfold alignWordPos
  omega

theorem alignWordPos_mod (p : Nat) : alignWordPos p % 32 = 0 := by
  unfold alignWordPos
  omega

theorem alignWordPos_add {p : Nat} (n : Nat) (hp : p % 32 = 0) (h : p + n + 31 < 2 ^ 32) :
    alignWordPos (p + n) = p + alignWordPos n := by
  unfold alignWordPos
  omega

section

variable {b : Nat} {vs : List Word} {c : Nat} {form : PlaneForm}

/-- A layout's fields end at `fin` or before. -/
def Layout.EndsBefore (l : Layout) : Prop := ∀ f ∈ l.fields, f.pos + f.bits.length ≤ l.fin

/-- The Sig part of a plane that starts below 2^31 lies between its start and its end, without wrap. -/
theorem sigLayout_bounds (hlen : vs.length ≤ 16384) (hc : c ≤ 2 ^ 31) (hfit : formFits vs b form) :
    (sigLayout b vs c form).EndsBefore ∧ c + 16 ≤ (sigLayout b vs c form).fin ∧
      (sigLayout b vs c form).fin ≤ c + 2 ^ 16 := by
  have hnew := (length_newcomers_le b vs).trans hlen
  have hsign := (length_signBits_le b vs).trans hlen
  cases form with
  | rlSig =>
    have hcode : (sigCode b vs).length ≤ 32767 := hfit
    have hle := alignWordPos_le (c + 16 + (sigCode b vs).length)
    have hge := le_alignWordPos (p := c + 16 + (sigCode b vs).length) (by omega)
    simp [Layout.EndsBefore, sigLayout]
    omega
  | rlSign =>
    have hcode : (signCodeBits b vs).length ≤ 32767 := hfit
    have hle := alignWordPos_le (c + 32 + (signCodeBits b vs).length)
    have hge := le_alignWordPos (p := c + 32 + (signCodeBits b vs).length) (by omega)
    have hle' := alignWordPos_le (alignWordPos (c + 32 + (signCodeBits b vs).length) + (newcomers b vs).length)
    have hge' := le_alignWordPos (p := alignWordPos (c + 32 + (signCodeBits b vs).length) + (newcomers b vs).length)
      (by omega)
    simp [Layout.EndsBefore, sigLayout]
    omega
  | literalSign =>
    have hle := alignWordPos_le (c + 32)
    have hge := le_alignWordPos (p := c + 32) (by omega)
    have hle' := alignWordPos_le (alignWordPos (c + 32) + (signBits b vs).length)
    have hge' := le_alignWordPos (p := alignWordPos (c + 32) + (signBits b vs).length) (by omega)
    have hle'' := alignWordPos_le (alignWordPos (alignWordPos (c + 32) + (signBits b vs).length)
      + (newcomers b vs).length)
    have hge'' := le_alignWordPos (p := alignWordPos (alignWordPos (c + 32) + (signBits b vs).length)
      + (newcomers b vs).length) (by omega)
    simp [Layout.EndsBefore, sigLayout]
    omega

theorem sigLayout_fin_mod (b : Nat) (vs : List Word) (c : Nat) (form : PlaneForm) :
    (sigLayout b vs c form).fin % 32 = 0 := by
  cases form <;> exact alignWordPos_mod _

/-- A plane that starts below 2^31 lies between its start and its end, without wrap. -/
theorem planeLayout_bounds (hlen : vs.length ≤ 16384) (hc : c ≤ 2 ^ 31) (hfit : formFits vs b form) :
    (planeLayout b vs c form).EndsBefore ∧ c + 16 ≤ (planeLayout b vs c form).fin ∧
      (planeLayout b vs c form).fin ≤ c + 2 ^ 17 := by
  obtain ⟨hends, hge, hle⟩ := sigLayout_bounds hlen hc hfit
  have href := length_newcomers_add_refinementBits b vs
  have hfin := alignWordPos_le ((sigLayout b vs c form).fin + (refinementBits b vs).length)
  have hfin' := le_alignWordPos (p := (sigLayout b vs c form).fin + (refinementBits b vs).length) (by omega)
  refine ⟨?_, by simp only [planeLayout]; omega, by simp only [planeLayout]; omega⟩
  simp only [Layout.EndsBefore, planeLayout, List.forall_mem_append, List.forall_mem_singleton]
  exact ⟨fun f hf => (hends f hf).trans (by omega), hfin'⟩

end

/-- The planes lie one after the other, without wrap. -/
theorem planesLayout_bounds {form : Nat → PlaneForm} {vs : List Word} (hlen : vs.length ≤ 16384) (n : Nat) :
    ∀ c, c + n * 2 ^ 17 ≤ 2 ^ 31 → (∀ b, b < n → formFits vs b (form b)) →
      (planesLayout form vs n c).EndsBefore ∧ c ≤ (planesLayout form vs n c).fin ∧
        (planesLayout form vs n c).fin ≤ c + n * 2 ^ 17 := by
  induction n with
  | zero => exact fun c _ _ => ⟨nofun, le_refl _, Nat.le_add_right _ _⟩
  | succ n ih =>
    intro c hc hfit
    obtain ⟨hends, hge, hle⟩ := planeLayout_bounds hlen (c := c) (by omega) (hfit n (by omega))
    obtain ⟨hends', hge', hle'⟩ := ih (planeLayout n vs c (form n)).fin (by omega) fun b hb => hfit b (by omega)
    refine ⟨?_, by simp only [planesLayout]; omega, by simp only [planesLayout]; omega⟩
    simp only [Layout.EndsBefore, planesLayout, List.forall_mem_append]
    exact ⟨fun f hf => (hends f hf).trans hge', hends'⟩

/-! ## The forms an encoder chooses (R178, R181, R190) -/

section

variable (favorSpeed : Bool) (vs : List Word) (b : Nat)

theorem chosenForm_fits : formFits vs b (chosenForm favorSpeed vs b) := by
  unfold chosenForm
  dsimp only
  split
  · next h =>
    obtain ⟨-, hcode, -⟩ := h
    exact hcode
  · split
    · next h =>
      obtain ⟨-, hcode, -⟩ := h
      exact hcode
    · trivial

/-- R190: a plane in its chosen form takes at most 170 bits more than its values and its signs. -/
theorem planeLayout_chosen_le (c : Nat) : (planeLayout b vs c (chosenForm favorSpeed vs b)).fin ≤
    c + (vs.length + 170) + (signBits b vs).length := by
  have href := length_newcomers_add_refinementBits b vs
  have hsig : (sigLayout b vs c (chosenForm favorSpeed vs b)).fin ≤
      c + (newcomers b vs).length + (signBits b vs).length + 139 := by
    unfold chosenForm
    dsimp only
    split
    · next h =>
      obtain ⟨-, -, hcode⟩ := h
      have hpos := alignWordPos_le (newcomers b vs).length
      have hsign := alignWordPos_le (signBits b vs).length
      have hfin := alignWordPos_le (c + 16 + (sigCode b vs).length)
      rw [length_sigBits] at hcode
      simp only [sigLayout]
      omega
    · split
      · next h =>
        obtain ⟨-, -, hcode⟩ := h
        have hstart := alignWordPos_le (c + 32 + (signCodeBits b vs).length)
        simp only [sigLayout, length_sigBits]
        exact (alignWordPos_le _).trans (by omega)
      · have hstart := alignWordPos_le (c + 32)
        have hsign := alignWordPos_le (alignWordPos (c + 32) + (signBits b vs).length)
        simp only [sigLayout, length_sigBits]
        exact (alignWordPos_le _).trans (by omega)
  exact (alignWordPos_le _).trans (by omega)

/-- R190: over all planes the signs are counted once. -/
theorem planesLayout_chosen_le (n : Nat) : ∀ c,
    (planesLayout (chosenForm favorSpeed vs) vs n c).fin + significantCount n vs ≤
      c + n * (vs.length + 170) + significantCount 0 vs := by
  induction n with
  | zero => exact fun c => le_of_eq (by simp only [planesLayout]; omega)
  | succ n ih =>
    intro c
    have hplane := planeLayout_chosen_le favorSpeed vs n c
    have hrest := ih (planeLayout n vs c (chosenForm favorSpeed vs n)).fin
    have hsign := significantCount_succ_add_signBits n vs
    have hmul : (n + 1) * (vs.length + 170) = n * (vs.length + 170) + (vs.length + 170) := Nat.succ_mul _ _
    simp only [planesLayout]
    omega

end

end Sys2Proof.Machine
end

section
/-! MB_ENCODE's passes and emissions against the payload format (43_mb_encoder.md R174 to R183). -/

namespace Sys2Proof.Machine

/-! ## The coefficients between planes (R174, R175) -/

/-- A value as the encoder sees it once the planes from `n` up are done. -/
def coefAt (n : Nat) (v : Word) : Coef := ⟨absCoef v, decide (s32 v < 0), decide (2 ^ n ≤ absCoef v)⟩

theorem coefOf_eq_coefAt {n : Nat} {v : Word} (h : absCoef v < 2 ^ n) : coefOf v = coefAt n v := by
  rw [coefOf, coefAt, decide_eq_false (Nat.not_le.2 h)]

theorem flagsAfter_map_coefAt (b : Nat) (vs : List Word) :
    flagsAfter b (vs.map (coefAt (b + 1))) = vs.map (coefAt b) := by
  rw [flagsAfter, List.map_map]
  refine List.map_congr_left fun v _ => ?_
  simp only [Function.comp_apply, coefAt, Coef.mk.injEq, true_and]
  rw [Bool.eq_iff_iff, Bool.or_eq_true, decide_eq_true_eq, decide_eq_true_eq]
  exact (two_pow_le_iff (absCoef v) b).symm

/-! ## The significance pass (R175 to R177) -/

theorem growK_eq {k : Nat} (h : k ≤ 32) : growK k = afterFullRun k := by
  unfold growK afterFullRun
  split <;> omega

theorem afterFullRun_le (k : Nat) : afterFullRun k ≤ 32 := Nat.min_le_right _ _

/-- Writing a 0 at a bit string's end changes nothing. -/
theorem writeBits_false {a : BitString} {n : Nat} (h : a < 2 ^ n) : writeBits a n [false] = a := by
  apply Nat.eq_of_testBit_eq
  intro q
  rw [testBit_writeBits]
  split
  · next hq =>
    obtain rfl : q = n := by simp only [List.length_singleton] at hq; omega
    rw [Nat.testBit_lt_two_pow h, Nat.sub_self, List.getD_cons_zero]
  · rfl

theorem writeBits_lt {a : BitString} {n : Nat} (l : List Bool) (h : a < 2 ^ n) :
    writeBits a n l < 2 ^ (n + l.length) :=
  lt_two_pow_of_changesWithin (ChangesWithin.writeBits a n l) (h.trans_le (Nat.pow_le_pow_right (by omega) (by omega)))

/-- What the pass over `vs` and the tail write after the state `x`: the significance code into CB and the three lists of
bits into the temporaries. -/
structure PassWrites (b : Nat) (vs : List Word) (x y : SigPass) : Prop where
  cb      : y.cb = writeBits x.cb x.pos (rlSigCode b x.k x.count (newcomers b vs))
  pos     : y.pos = x.pos + (rlSigCode b x.k x.count (newcomers b vs)).length
  sigPos  : y.sigPos = x.sigPos + (sigBits b vs).length
  signLen : y.signLen = x.signLen + (signBits b vs).length
  sigt    : y.sigt = writeBits x.sigt x.sigPos (sigBits b vs)
  sgnt    : y.sgnt = writeBits x.sgnt x.signLen (signBits b vs)
  reft    : y.reft = writeBits x.reft x.refPos (refinementBits b vs)

theorem emitBit_eq (x : SigPass) (b : Bool) :
    emitBit x b = { x with cb := writeBits x.cb x.pos [b], pos := x.pos + 1 } := rfl

theorem emitCount_eq (x : SigPass) (v k : Nat) :
    emitCount x v k = { x with cb := writeBits x.cb x.pos (fieldBits v k), pos := x.pos + k } := by
  rw [emitCount, setVal_eq_writeBits]

theorem writeBits_cons (a : BitString) (p : Nat) (b : Bool) (l : List Bool) :
    writeBits (writeBits a p [b]) (p + 1) l = writeBits a p (b :: l) := writeBits_writeBits a p [b] l

/-- A bit, a field of `k` bits and a list, written one after the other. -/
theorem writeBits_symbol (a : BitString) (p : Nat) (b : Bool) (v k : Nat) (l : List Bool) :
    writeBits (writeBits (writeBits a p [b]) (p + 1) (fieldBits v k)) (p + 1 + k) l =
      writeBits a p (b :: (fieldBits v k ++ l)) := by
  have hfield := writeBits_writeBits (writeBits a p [b]) (p + 1) (fieldBits v k) l
  rw [length_fieldBits] at hfield
  rw [hfield, writeBits_cons]

theorem sigTail_writes (b : Nat) (x : SigPass) : PassWrites b [] x (sigTail x) := by
  have hcode : rlSigCode b x.k x.count (newcomers b []) = true :: (fieldBits x.count x.k ++ [true]) := rfl
  have hbits : sigBits b [] = [] := rfl
  have hsigns : signBits b [] = [] := rfl
  have href : refinementBits b [] = [] := rfl
  simp only [sigTail, emitBit_eq, emitCount_eq]
  constructor
  · rw [hcode, ← writeBits_symbol]
  · rw [hcode]
    simp
    omega
  all_goals simp [hbits, hsigns, href]

section

variable {b : Nat} {v : Word} {vs : List Word} {x y : SigPass}

theorem PassWrites.refine (hs : significantBefore b v = true)
    (h : PassWrites b vs (sigStep b (coefAt (b + 1) v) x) y) : PassWrites b (v :: vs) x y := by
  have hstep : sigStep b (coefAt (b + 1) v) x =
      { x with reft := writeBits x.reft x.refPos [planeBit b v], refPos := x.refPos + 1 } := if_pos hs
  rw [hstep] at h
  obtain ⟨hcb, hpos, hsigPos, hsignLen, hsigt, hsgnt, hreft⟩ := h
  rw [writeBits_cons, ← refinementBits_cons_of_significant vs hs] at hreft
  constructor <;>
    simpa only [newcomers_cons_of_significant vs hs, sigBits_cons_of_significant vs hs,
      signBits_cons_of_significant vs hs]

theorem sigStep_of_not (hs : significantBefore b v = false) : sigStep b (coefAt (b + 1) v) x =
    if planeBit b v then significantStep (coefAt (b + 1) v) x else zeroStep x :=
  if_neg (Bool.eq_false_iff.1 hs)

theorem PassWrites.significant (hs : significantBefore b v = false) (hv : planeBit b v = true)
    (h : PassWrites b vs (sigStep b (coefAt (b + 1) v) x) y) : PassWrites b (v :: vs) x y := by
  rw [sigStep_of_not hs, if_pos hv] at h
  obtain ⟨hcb, hpos, hsigPos, hsignLen, hsigt, hsgnt, hreft⟩ := h
  simp only [significantStep, emitBit_eq, emitCount_eq, coefAt] at hcb hpos hsigPos hsignLen
  simp only [significantStep, emitBit_eq, emitCount_eq, coefAt, putBit_eq_writeBits] at hsigt hsgnt hreft
  have hcode : rlSigCode b x.k x.count (newcomers b (v :: vs)) =
      true :: (fieldBits x.count x.k ++ decide (s32 v < 0) :: rlSigCode b (x.k - 1) 0 (newcomers b vs)) := by
    rw [newcomers_cons_of_not vs hs]
    exact if_pos hv
  have hbits : sigBits b (v :: vs) = true :: sigBits b vs := hv ▸ sigBits_cons_of_not vs hs
  have hsigns := signBits_cons_of_one vs hs hv
  constructor
  · rw [hcode, ← writeBits_symbol, ← writeBits_cons, hcb]
  · rw [hcode, hpos]
    simp
    omega
  · rw [hbits, hsigPos, List.length_cons]
    omega
  · rw [hsigns, hsignLen, List.length_cons]
    omega
  · rw [hbits, hsigt, writeBits_cons]
  · rw [hsigns, hsgnt, writeBits_cons]
  · rw [refinementBits_cons_of_not vs hs, hreft]

theorem PassWrites.zero (hs : significantBefore b v = false) (hv : planeBit b v = false) (hk : x.k ≤ 32)
    (hsigt : x.sigt < 2 ^ x.sigPos)
    (h : PassWrites b vs (sigStep b (coefAt (b + 1) v) x) y) : PassWrites b (v :: vs) x y := by
  have hnew := newcomers_cons_of_not vs hs
  have hsigns := signBits_cons_of_zero vs hs hv
  have href := refinementBits_cons_of_not vs hs
  have hbits : sigBits b (v :: vs) = false :: sigBits b vs := hv ▸ sigBits_cons_of_not vs hs
  have hwrite : writeBits x.sigt x.sigPos (false :: sigBits b vs) = writeBits x.sigt (x.sigPos + 1) (sigBits b vs) := by
    rw [← writeBits_cons, writeBits_false hsigt]
  rw [sigStep_of_not hs, if_neg (Bool.eq_false_iff.1 hv), zeroStep] at h
  split at h
  · next hfull =>
    obtain ⟨hcb, hpos, hsigPos, hsignLen, hsigt, hsgnt, hreft⟩ := h
    simp only [emitBit_eq, growK_eq hk] at hcb hpos hsigPos hsignLen hsigt hsgnt hreft
    have hcode : rlSigCode b x.k x.count (newcomers b (v :: vs)) =
        false :: rlSigCode b (afterFullRun x.k) 0 (newcomers b vs) := by
      rw [hnew, rlSigCode, if_neg (Bool.eq_false_iff.1 hv), if_pos hfull]
    refine ⟨?_, ?_, ?_, hsigns ▸ hsignLen, by rw [hbits, hsigt, hwrite], hsigns ▸ hsgnt, href ▸ hreft⟩
    · rw [hcode, hcb, writeBits_cons]
    · rw [hcode, hpos, List.length_cons]
      omega
    · rw [hbits, hsigPos, List.length_cons]
      omega
  · next hrun =>
    obtain ⟨hcb, hpos, hsigPos, hsignLen, hsigt, hsgnt, hreft⟩ := h
    have hcode : rlSigCode b x.k x.count (newcomers b (v :: vs)) = rlSigCode b x.k (x.count + 1) (newcomers b vs) := by
      rw [hnew, rlSigCode, if_neg (Bool.eq_false_iff.1 hv), if_neg hrun]
    refine ⟨hcode ▸ hcb, hcode ▸ hpos, ?_, hsigns ▸ hsignLen, by rw [hbits, hsigt, hwrite], hsigns ▸ hsgnt,
      href ▸ hreft⟩
    rw [hbits, hsigPos, List.length_cons, Nat.add_right_comm, Nat.add_assoc]

end

/-- A pass keeps the exponent's cap and leaves no significance bit past its count. -/
theorem sigStep_keeps {b : Nat} {e : Coef} {x : SigPass} (hk : x.k ≤ 32) (hsigt : x.sigt < 2 ^ x.sigPos) :
    (sigStep b e x).k ≤ 32 ∧ (sigStep b e x).sigt < 2 ^ (sigStep b e x).sigPos := by
  have hgrow : growK x.k ≤ 32 := growK_eq hk ▸ afterFullRun_le x.k
  have hmore : x.sigt < 2 ^ (x.sigPos + 1) := hsigt.trans_le (Nat.pow_le_pow_right (by omega) (Nat.le_succ _))
  unfold sigStep
  split
  · exact ⟨hk, hsigt⟩
  · split
    · exact ⟨(Nat.sub_le _ _).trans hk, writeBits_lt [true] hsigt⟩
    · unfold zeroStep
      split
      · exact ⟨hgrow, hmore⟩
      · exact ⟨hk, hmore⟩

/-- R175 to R177: the pass over a plane and its tail write what the format puts there. -/
theorem passWrites_decompose (b : Nat) (vs : List Word) : ∀ x : SigPass, x.k ≤ 32 → x.sigt < 2 ^ x.sigPos →
    PassWrites b vs x (sigTail (decompose b (vs.map (coefAt (b + 1))) x)) := by
  induction vs with
  | nil => exact fun x _ _ => sigTail_writes b x
  | cons v t ih =>
    intro x hk hsigt
    obtain ⟨hk', hsigt'⟩ := sigStep_keeps (b := b) (e := coefAt (b + 1) v) hk hsigt
    have hrest := ih _ hk' hsigt'
    cases hs : significantBefore b v with
    | true => exact hrest.refine hs
    | false =>
      cases hv : planeBit b v with
      | true => exact hrest.significant hs hv
      | false => exact hrest.zero hs hv hk hsigt

/-- R174: what DecomposeSig of a plane writes. -/
theorem planePass_writes {b : Nat} {vs : List Word} {e : EncState} (he : e.coefs = vs.map (coefAt (b + 1))) :
    PassWrites b vs ⟨e.cb, e.cp + 16, 3, 0, 0, 0, 0, 0, e.reft, e.sgnt⟩ (planePass b e) := by
  rw [planePass, he]
  exact passWrites_decompose b vs _ (show (3 : Nat) ≤ 32 by omega) (Nat.two_pow_pos _)

/-! ## The sign trial (R180) -/

/-- A search for a 0 in a run of 1s that is followed by a 0 or ends the search. -/
theorem seek_of_run {a : BitString} {m : Nat} (n : Nat) : ∀ {p : Nat}, Holds a p (List.replicate n true) → n ≤ m →
    n = m ∨ BitString.getBit a (p + n) = false → seek (BitString.getBit a) true p m = n := by
  induction m generalizing n with
  | zero => intro p _ hle _; simp only [seek]; omega
  | succ m ih =>
    intro p hrun hle hend
    cases n with
    | zero =>
      have hbit : BitString.getBit a p = false := hend.resolve_left (by omega)
      rw [seek, hbit]
      rfl
    | succ n =>
      rw [List.replicate_succ] at hrun
      obtain ⟨hbit, hrest⟩ := standsAt_cons.1 hrun
      have hnext : p + (n + 1) = p + 1 + n := by omega
      rw [seek, if_pos hbit, ih n hrest (by omega) (hend.imp (by omega) (hnext ▸ id))]

section

variable {sgnt : BitString} {signLen : Nat} {x : SignPass}

theorem signCode_done (n : Nat) (h : signLen ≤ x.sp) : signCode sgnt signLen n x = x := by
  cases n with
  | zero => rfl
  | succ n => exact if_neg (by omega)

theorem signCode_fullRun {n : Nat} (hsp : x.sp + 2 ^ x.k ≤ signLen)
    (hrun : Holds sgnt x.sp (List.replicate (2 ^ x.k) true)) : signCode sgnt signLen (n + 1) x =
      signCode sgnt signLen n
        ⟨writeBits x.cb x.pos [true], x.pos + 1, growK x.k, x.sp + 2 ^ x.k⟩ := by
  have hpow := Nat.two_pow_pos x.k
  have hseek := seek_of_run (m := min (2 ^ x.k) (signLen - x.sp)) _ hrun (by omega) (.inl (by omega))
  rw [signCode, if_pos (by omega)]
  simp only [hseek, if_true, putBit_eq_writeBits]

theorem signCode_shortRun {n m : Nat} (hsp : x.sp < signLen) (hm : m < 2 ^ x.k) (hle : x.sp + m ≤ signLen)
    (hrun : Holds sgnt x.sp (List.replicate m true))
    (hend : x.sp + m = signLen ∨ BitString.getBit sgnt (x.sp + m) = false) : signCode sgnt signLen (n + 1) x =
      signCode sgnt signLen n
        ⟨writeBits (writeBits x.cb x.pos [false]) (x.pos + 1) (fieldBits m x.k), x.pos + 1 + x.k, x.k - 1,
          x.sp + m + 1⟩ := by
  have hseek := seek_of_run (m := min (2 ^ x.k) (signLen - x.sp)) m hrun (by omega) (hend.imp_left (by omega))
  rw [signCode, if_pos hsp]
  simp only [hseek, if_neg (show ¬ m = 2 ^ x.k by omega), putBit_eq_writeBits, setVal_eq_writeBits]

end

/-- R180: the sign trial writes the format's sign code. -/
theorem signCode_writes {sgnt : BitString} {signLen : Nat} (n : Nat) : ∀ {signs : List Bool} {x : SignPass},
    x.k ≤ 32 → signs.length ≤ n → x.sp + signs.length = signLen → Holds sgnt x.sp signs →
      (signCode sgnt signLen n x).cb = writeBits x.cb x.pos (rlSignCode x.k 0 signs) ∧
      (signCode sgnt signLen n x).pos = x.pos + (rlSignCode x.k 0 signs).length := by
  induction n with
  | zero =>
    intro signs x _ hn _ _
    obtain rfl := List.eq_nil_of_length_eq_zero (by omega : signs.length = 0)
    exact ⟨(writeBits_nil _ _).symm, rfl⟩
  | succ n ih =>
    intro signs x hk hn hsp hsigns
    have hpow := Nat.two_pow_pos x.k
    rcases rlSignCode_symbol x.k signs 0 hpow with ⟨m, rest, rfl, hm, hcode⟩ | ⟨m, rest, rfl, hm, hcode⟩ |
      ⟨m, rfl, hm, hcode⟩
    · obtain rfl : m = 2 ^ x.k := (Nat.zero_add m).symm.trans hm
      obtain ⟨hrun, hrest⟩ := standsAt_append.1 hsigns
      rw [List.length_append, List.length_replicate] at hn hsp
      rw [List.length_replicate] at hrest
      rw [signCode_fullRun (by omega) hrun, growK_eq hk, hcode, List.length_cons]
      obtain ⟨hcb, hpos⟩ := ih (x := ⟨writeBits x.cb x.pos [true], x.pos + 1, afterFullRun x.k, x.sp + 2 ^ x.k⟩)
        (afterFullRun_le x.k) (by omega) (by simp only; omega) hrest
      exact ⟨hcb.trans (writeBits_cons _ _ _ _), hpos.trans (by simp only; omega)⟩
    · rw [Nat.zero_add] at hm hcode
      obtain ⟨hrun, hend⟩ := standsAt_append.1 hsigns
      obtain ⟨hzero, hrest⟩ := standsAt_cons.1 hend
      rw [List.length_append, List.length_replicate, List.length_cons] at hn hsp
      rw [List.length_replicate] at hzero hrest
      rw [signCode_shortRun (by omega) hm (by omega) hrun (.inr hzero), hcode, List.cons_append, ← writeBits_symbol]
      obtain ⟨hcb, hpos⟩ := ih (x := ⟨writeBits (writeBits x.cb x.pos [false]) (x.pos + 1) (fieldBits m x.k),
        x.pos + 1 + x.k, x.k - 1, x.sp + m + 1⟩) ((Nat.sub_le _ _).trans hk) (by omega) (by simp only; omega) hrest
      exact ⟨hcb, hpos.trans (by simp; omega)⟩
    · rw [Nat.zero_add] at hm hcode
      rw [List.length_replicate] at hn hsp
      rw [hcode]
      split
      · rw [signCode_done _ (by omega), writeBits_nil]
        exact ⟨rfl, rfl⟩
      · rw [signCode_shortRun (by omega) hm (by omega) hsigns (.inl hsp), signCode_done _ (by simp only; omega),
          writeBits_cons]
        exact ⟨rfl, by simp; omega⟩

end Sys2Proof.Machine
end

section
/-! One encoded plane against the payload format: its fields, its end and what it leaves unchanged (43_mb_encoder.md R174,
R178 to R183). -/

namespace Sys2Proof.Machine

/-! ## Words of a temporary (R181 to R183) -/

theorem numberOfWords_mul {p : Nat} (h : p + 31 < 2 ^ 32) : 32 * numberOfWords p = alignWordPos p := by
  unfold numberOfWords alignWordPos
  omega

theorem copyWords_eq (cb : BitString) (wp : Nat) (src : BitString) (n : Nat) :
    copyWords cb wp src n = BitString.setVal cb (32 * wp) src (32 * n) := rfl

theorem changesWithin_copyWords (cb : BitString) (wp : Nat) (src : BitString) (n : Nat) :
    ChangesWithin (32 * wp) (32 * wp + 32 * n) cb (copyWords cb wp src n) := ChangesWithin.setVal cb _ src _

/-- The words copied from a temporary carry the temporary's bits. -/
theorem holds_copyWords {src : BitString} {l : List Bool} (cb : BitString) (wp : Nat) {n : Nat} (h : Holds src 0 l)
    (hn : l.length ≤ 32 * n) : Holds (copyWords cb wp src n) (32 * wp) l :=
  standsAt_of_getD fun i hi => by
    have hbit : BitString.getBit src i = l.getD i false := by
      have := h (l.getD i false, i) (by
        rw [List.mem_zipIdx_iff_getElem?, List.getElem?_eq_getElem hi, List.getD_eq_getElem _ _ hi])
      exact this
    rw [copyWords_eq, BitString.getBit, BitString.testBit_setVal, if_pos (by omega), Nat.add_sub_cancel_left]
    exact hbit

/-! ## Selectors and length fields (R179, R181) -/

/-- A selector bit and the 15-bit length field after it. -/
def header (selector : Bool) (len : Nat) : List Bool := selector :: fieldBits len 15

@[simp] theorem length_header (selector : Bool) (len : Nat) : (header selector len).length = 16 := by simp [header]

theorem setVal_putBit_eq_header (cb : BitString) (p : Nat) (selector : Bool) (len : Nat) :
    BitString.setVal (BitString.putBit cb p selector) (p + 1) len Config.lenBits =
      writeBits cb p (header selector len) := by
  rw [putBit_eq_writeBits, setVal_eq_writeBits, writeBits_cons, header, Config.lenBits]

theorem changesWithin_header (cb : BitString) (p : Nat) (selector : Bool) (len : Nat) :
    ChangesWithin p (p + 16) cb (writeBits cb p (header selector len)) := by
  simpa using ChangesWithin.writeBits cb p (header selector len)

/-! ## The Sig part of a plane (R178 to R182) -/

theorem chosenForm_eq (favorSpeed : Bool) (vs : List Word) (b : Nat) : chosenForm favorSpeed vs b =
    if choosesRlSig (sigCode b vs).length (sigBits b vs).length (signBits b vs).length then .rlSig
    else if choosesRlSign favorSpeed (signCodeBits b vs).length (signBits b vs).length then .rlSign
    else .literalSign := by
  have hsig : choosesRlSig (sigCode b vs).length (sigBits b vs).length (signBits b vs).length = true ↔
      0 < (sigBits b vs).length ∧ (sigCode b vs).length ≤ 32767 ∧ (sigCode b vs).length <
        alignWordPos (sigBits b vs).length + alignWordPos (signBits b vs).length + 30 := by
    simp only [choosesRlSig, Bool.and_eq_true, decide_eq_true_eq, and_assoc]
    exact Iff.rfl
  have hsign : choosesRlSign favorSpeed (signCodeBits b vs).length (signBits b vs).length = true ↔
      favorSpeed = false ∧ (signCodeBits b vs).length ≤ 32767 ∧
        (signCodeBits b vs).length < (signBits b vs).length := by
    simp only [choosesRlSign, triesSignCode, Bool.and_eq_true, Bool.not_eq_true', decide_eq_true_eq]
    exact ⟨fun ⟨⟨⟨hfavor, _⟩, hfits⟩, hlt⟩ => ⟨hfavor, hfits, hlt⟩,
      fun ⟨hfavor, hfits, hlt⟩ => ⟨⟨⟨hfavor, by omega⟩, hfits⟩, hlt⟩⟩
  simp only [chosenForm, hsig, hsign]

/-- What an emission of the Sig part at `cp` leaves: the fields of the layout, the start of the refinement bits, and
nothing changed outside its positions. -/
structure EmitsSig (b : Nat) (vs : List Word) (cp : Nat) (form : PlaneForm) (cb : BitString) (r : BitString × Nat) :
    Prop where
  carries : carries r.1 (sigLayout b vs cp form)
  fin     : alignWordPos r.2 = (sigLayout b vs cp form).fin
  changes : ChangesWithin cp (sigLayout b vs cp form).fin cb r.1

section

variable {b : Nat} {vs : List Word} {cp : Nat} {cb : BitString}

/-- R179. -/
theorem emitRlSig_emits (hlen : vs.length ≤ 16384) (hcp : cp ≤ 2 ^ 31) (hfit : formFits vs b .rlSig)
    (hcode : Holds cb (cp + 16) (sigCode b vs)) :
    EmitsSig b vs cp .rlSig cb (emitRlSig cb cp (sigCode b vs).length) := by
  obtain ⟨-, hge, -⟩ := sigLayout_bounds hlen hcp hfit
  have hhead := holds_writeBits cb cp (header true (sigCode b vs).length)
  have hchanges := changesWithin_header cb cp true (sigCode b vs).length
  rw [emitRlSig, setVal_putBit_eq_header]
  refine ⟨?_, rfl, hchanges.mono (le_refl _) hge⟩
  obtain ⟨hsel, hlen⟩ := standsAt_cons.1 hhead
  rw [carries_iff]
  simp only [sigLayout, List.forall_mem_cons, List.not_mem_nil, false_implies, implies_true, and_true]
  exact ⟨standsAt_cons.2 ⟨hsel, standsAt_nil⟩, hlen, hchanges.holds (.inr (le_refl _)) hcode⟩

/-- R182: the literal significance bits, copied after a Sign field that ends at word `wp`, end the Sig part. -/
theorem alignWordPos_copied {start n wp : Nat} (hwp : 32 * wp = alignWordPos start) (hlt : start + n + 100 < 2 ^ 32) :
    alignWordPos ((wp + numberOfWords n) * 32) = alignWordPos (alignWordPos start + n) := by
  have hwords := numberOfWords_mul (p := n) (by omega)
  have hle := alignWordPos_le start
  have hle' := alignWordPos_le n
  rw [alignWordPos_add n (alignWordPos_mod start) (by omega)]
  have hend : (wp + numberOfWords n) * 32 = alignWordPos start + alignWordPos n := by omega
  rw [hend, alignWordPos_add _ (alignWordPos_mod start) (by omega)]
  congr 1
  unfold alignWordPos
  omega

variable {x : SigPass} (hlen : vs.length ≤ 16384) (hcp : cp ≤ 2 ^ 31)

/-- R180: what the sign trial writes, if it is made. -/
theorem signTrial_writes (hsgnt : Holds x.sgnt 0 (signBits b vs)) (favorSpeed : Bool) (cb : BitString) (s0 : Nat)
    (htry : triesSignCode favorSpeed (signBits b vs).length = true) :
    (signTrial favorSpeed cb s0 x.sgnt (signBits b vs).length).cb = writeBits cb s0 (signCodeBits b vs) ∧
    (signTrial favorSpeed cb s0 x.sgnt (signBits b vs).length).pos = s0 + (signCodeBits b vs).length := by
  rw [signTrial, if_pos htry]
  exact signCode_writes (x := ⟨cb, s0, 0, 0⟩) _ (by simp only; omega) (le_refl _) (Nat.zero_add _) hsgnt

/-- R181: the choice by the trial's length is the choice by the format's code. -/
theorem choosesRlSign_signTrial (hsgnt : Holds x.sgnt 0 (signBits b vs)) (favorSpeed : Bool) (cb : BitString)
    (s0 : Nat) : choosesRlSign favorSpeed ((signTrial favorSpeed cb s0 x.sgnt (signBits b vs).length).pos - s0)
        (signBits b vs).length =
      choosesRlSign favorSpeed (signCodeBits b vs).length (signBits b vs).length := by
  cases htry : triesSignCode favorSpeed (signBits b vs).length with
  | false => simp only [choosesRlSign, htry, Bool.false_and]
  | true =>
    obtain ⟨-, hpos⟩ := signTrial_writes hsgnt favorSpeed cb s0 htry
    rw [hpos, Nat.add_sub_cancel_left]

/-- R180 to R182: the literal Sig part after the trial, whose Sign field is in `sign` and ends before word `wp`. -/
theorem emitsSig_literal {form : PlaneForm} {sign : BitString} {wp signFin : Nat} {fields : List Field}
    (hlayout : sigLayout b vs cp form =
      ⟨⟨cp, [false]⟩ :: ⟨cp + 1, fieldBits (sigBits b vs).length 15⟩ ::
          (fields ++ [⟨alignWordPos signFin, sigBits b vs⟩]),
        alignWordPos (alignWordPos signFin + (sigBits b vs).length)⟩)
    (hlen : vs.length ≤ 16384) (hcp : cp ≤ 2 ^ 31) (hstart : cp + 16 ≤ signFin) (hfin : signFin ≤ cp + 2 ^ 16)
    (hsigt : Holds x.sigt 0 (sigBits b vs)) (hwp : 32 * wp = alignWordPos signFin)
    (hsign : ChangesWithin (cp + 16) (alignWordPos signFin)
      (writeBits cb cp (header false (sigBits b vs).length)) sign)
    (hfields : ∀ f ∈ fields, Holds sign f.pos f.bits ∧ f.pos + f.bits.length ≤ signFin) :
    EmitsSig b vs cp form cb
      (copyWords sign wp x.sigt (numberOfWords (sigBits b vs).length),
        (wp + numberOfWords (sigBits b vs).length) * 32) := by
  have hnew : (sigBits b vs).length ≤ 16384 := (length_sigBits b vs).trans_le ((length_newcomers_le b vs).trans hlen)
  have halign := le_alignWordPos (p := signFin) (by omega)
  have hwords := numberOfWords_mul (p := (sigBits b vs).length) (by omega)
  have hend := alignWordPos_copied (n := (sigBits b vs).length) hwp (by omega)
  have hle := alignWordPos_le signFin
  have hle' := alignWordPos_le (sigBits b vs).length
  have hge' := le_alignWordPos (p := (sigBits b vs).length) (by omega)
  have hadd := alignWordPos_add (sigBits b vs).length (alignWordPos_mod signFin) (by omega)
  have hcopy := changesWithin_copyWords sign wp x.sigt (numberOfWords (sigBits b vs).length)
  obtain ⟨hsel, hfield⟩ := standsAt_cons.1 (holds_writeBits cb cp (header false (sigBits b vs).length))
  have hkeep : ∀ p (l : List Bool), p + l.length ≤ cp + 16 →
      Holds (writeBits cb cp (header false (sigBits b vs).length)) p l →
      Holds (copyWords sign wp x.sigt (numberOfWords (sigBits b vs).length)) p l := fun p l hp h =>
    hcopy.holds (.inl (by omega)) (hsign.holds (.inl hp) h)
  refine ⟨?_, by rw [hlayout]; exact hend, ?_⟩
  · rw [carries_iff, hlayout]
    simp only [List.forall_mem_cons, List.forall_mem_append]
    refine ⟨hkeep _ _ (by simp) (standsAt_cons.2 ⟨hsel, standsAt_nil⟩), hkeep _ _ (by simp) hfield, fun f hf => ?_, ?_⟩
    · obtain ⟨hf, hlt⟩ := hfields f hf
      exact hcopy.holds (.inl (by omega)) hf
    · rw [← hwp]
      exact ⟨holds_copyWords (n := numberOfWords (sigBits b vs).length) sign wp hsigt (by omega), nofun⟩
  · rw [hlayout]
    exact ((changesWithin_header cb cp false _).mono (le_refl _) (by simp only; omega)).trans
      ((hsign.mono (by omega) (by simp only; omega)).trans (hcopy.mono (by omega) (by simp only; omega)))

/-- R180 to R182, with the run-length sign form. -/
theorem emitLiteralSig_rlSign (favorSpeed : Bool) (hlen : vs.length ≤ 16384) (hcp : cp ≤ 2 ^ 31)
    (hpos : x.sigPos = (sigBits b vs).length) (hsign : x.signLen = (signBits b vs).length)
    (hsigt : Holds x.sigt 0 (sigBits b vs)) (hsgnt : Holds x.sgnt 0 (signBits b vs))
    (hchoice : choosesRlSign favorSpeed (signCodeBits b vs).length (signBits b vs).length = true) :
    EmitsSig b vs cp .rlSign (signTrial favorSpeed x.cb (cp + 32) x.sgnt x.signLen).cb
      (emitLiteralSig favorSpeed cp x) := by
  have hcodeLen : (signCodeBits b vs).length ≤ 32767 := signCodeLen_le_of_choosesRlSign hchoice
  have htry : triesSignCode favorSpeed (signBits b vs).length = true := by
    simp only [choosesRlSign, Bool.and_eq_true] at hchoice
    obtain ⟨⟨htry, -⟩, -⟩ := hchoice
    exact htry
  obtain ⟨hcb, htrial⟩ := signTrial_writes hsgnt favorSpeed x.cb (cp + 32) htry
  have hcode := holds_writeBits x.cb (cp + 32) (signCodeBits b vs)
  rw [← hcb] at hcode
  simp only [emitLiteralSig, emitSign, setVal_putBit_eq_header, hsign, hpos,
    choosesRlSign_signTrial hsgnt favorSpeed x.cb (cp + 32), hchoice, if_true]
  rw [htrial, Nat.add_sub_cancel_left]
  generalize (signTrial favorSpeed x.cb (cp + 32) x.sgnt (signBits b vs).length).cb = cb0 at hcode
  have hhead := changesWithin_header cb0 cp false (sigBits b vs).length
  have hhead' := changesWithin_header (writeBits cb0 cp (header false (sigBits b vs).length)) (cp + 16) true
    (signCodeBits b vs).length
  have hle := le_alignWordPos (p := cp + 32 + (signCodeBits b vs).length) (by omega)
  refine emitsSig_literal (signFin := cp + 32 + (signCodeBits b vs).length) (fields := [⟨cp + 16, [true]⟩,
    ⟨cp + 17, fieldBits (signCodeBits b vs).length 15⟩, ⟨cp + 32, signCodeBits b vs⟩]) rfl hlen hcp (by omega)
    (by omega) hsigt (numberOfWords_mul (by omega)) (hhead'.mono (le_refl _) (by omega)) ?_
  obtain ⟨hsel, hfield⟩ := standsAt_cons.1 (holds_writeBits
    (writeBits cb0 cp (header false (sigBits b vs).length)) (cp + 16) (header true (signCodeBits b vs).length))
  simp only [List.forall_mem_cons, List.not_mem_nil, false_implies, implies_true, and_true, length_fieldBits,
    List.length_singleton]
  exact ⟨⟨standsAt_cons.2 ⟨hsel, standsAt_nil⟩, by omega⟩, ⟨hfield, by omega⟩,
    hhead'.holds (.inr (by omega)) (hhead.holds (.inr (by omega)) hcode), le_refl _⟩

/-- R180 to R182, with the literal sign form. -/
theorem emitLiteralSig_literalSign (favorSpeed : Bool) (hlen : vs.length ≤ 16384) (hcp : cp ≤ 2 ^ 31)
    (hpos : x.sigPos = (sigBits b vs).length) (hsign : x.signLen = (signBits b vs).length)
    (hsigt : Holds x.sigt 0 (sigBits b vs)) (hsgnt : Holds x.sgnt 0 (signBits b vs))
    (hchoice : choosesRlSign favorSpeed (signCodeBits b vs).length (signBits b vs).length = false) :
    EmitsSig b vs cp .literalSign (signTrial favorSpeed x.cb (cp + 32) x.sgnt x.signLen).cb
      (emitLiteralSig favorSpeed cp x) := by
  have hsignLen := (length_signBits_le b vs).trans hlen
  simp only [emitLiteralSig, emitSign, setVal_putBit_eq_header, hsign, hpos,
    choosesRlSign_signTrial hsgnt favorSpeed x.cb (cp + 32), hchoice, if_false, Bool.false_eq_true]
  generalize (signTrial favorSpeed x.cb (cp + 32) x.sgnt (signBits b vs).length).cb = cb0
  have hstart := numberOfWords_mul (p := cp + 16 + 16) (by omega)
  have hwords := numberOfWords_mul (p := (signBits b vs).length) (by omega)
  have hle := alignWordPos_le (cp + 32)
  have hge := le_alignWordPos (p := cp + 32) (by omega)
  have hge' := le_alignWordPos (p := (signBits b vs).length) (by omega)
  have hle' := alignWordPos_le (signBits b vs).length
  have hadd := alignWordPos_add (signBits b vs).length (alignWordPos_mod (cp + 32)) (by omega)
  have hcp16 : cp + 16 + 16 = cp + 32 := by omega
  rw [hcp16] at hstart ⊢
  have hhead' := changesWithin_header (writeBits cb0 cp (header false (sigBits b vs).length)) (cp + 16) false
    (signBits b vs).length
  have hcopy := changesWithin_copyWords (writeBits (writeBits cb0 cp (header false (sigBits b vs).length)) (cp + 16)
    (header false (signBits b vs).length)) (numberOfWords (cp + 32)) x.sgnt (numberOfWords (signBits b vs).length)
  refine emitsSig_literal (signFin := alignWordPos (cp + 32) + (signBits b vs).length) (fields := [⟨cp + 16, [false]⟩,
    ⟨cp + 17, fieldBits (signBits b vs).length 15⟩, ⟨alignWordPos (cp + 32), signBits b vs⟩]) rfl hlen hcp (by omega)
    (by omega) hsigt (by omega) ((hhead'.mono (le_refl _) (by omega)).trans (hcopy.mono (by omega) (by omega))) ?_
  obtain ⟨hsel, hfield⟩ := standsAt_cons.1 (holds_writeBits
    (writeBits cb0 cp (header false (sigBits b vs).length)) (cp + 16) (header false (signBits b vs).length))
  simp only [List.forall_mem_cons, List.not_mem_nil, false_implies, implies_true, and_true, length_fieldBits,
    List.length_singleton]
  refine ⟨⟨hcopy.holds (.inl (by simp; omega)) (standsAt_cons.2 ⟨hsel, standsAt_nil⟩), by omega⟩,
    ⟨hcopy.holds (.inl (by simp; omega)) hfield, by omega⟩, ?_, le_refl _⟩
  rw [← hstart]
  exact holds_copyWords _ _ hsgnt (by omega)

/-- R178 to R182: the Sig part in the chosen form, over a trial that reaches less than 2^18 + 64 bits further. -/
theorem emitSig_emits (favorSpeed : Bool) (hlen : vs.length ≤ 16384) (hcp : cp ≤ 2 ^ 31)
    (hcode : Holds x.cb (cp + 16) (sigCode b vs)) (hend : x.pos = cp + 16 + (sigCode b vs).length)
    (hpos : x.sigPos = (sigBits b vs).length) (hsign : x.signLen = (signBits b vs).length)
    (hsigt : Holds x.sigt 0 (sigBits b vs)) (hsgnt : Holds x.sgnt 0 (signBits b vs)) :
    ∃ cb0, ChangesWithin cp (cp + (2 ^ 18 + 64)) x.cb cb0 ∧
      EmitsSig b vs cp (chosenForm favorSpeed vs b) cb0 (emitSig favorSpeed cp x) := by
  have hsignLen := (length_signBits_le b vs).trans hlen
  rw [chosenForm_eq, emitSig, hend, Nat.add_sub_cancel_left, hpos, hsign]
  split
  · next h =>
    exact ⟨x.cb, ChangesWithin.refl _ _ _, emitRlSig_emits hlen hcp (codeLen_le_of_choosesRlSig h) hcode⟩
  · refine ⟨(signTrial favorSpeed x.cb (cp + 32) x.sgnt x.signLen).cb, ?_, ?_⟩
    · cases htry : triesSignCode favorSpeed (signBits b vs).length with
      | false =>
        rw [hsign, signTrial, htry]
        exact ChangesWithin.refl _ _ _
      | true =>
        obtain ⟨hcb, -⟩ := signTrial_writes hsgnt favorSpeed x.cb (cp + 32) htry
        have hle := length_rlSignCode_le (signBits b vs) 0 0 (by omega)
        rw [hsign, hcb]
        exact (ChangesWithin.writeBits _ _ _).mono (by omega) (by rw [signCodeBits]; omega)
    · split
      · next h => exact emitLiteralSig_rlSign favorSpeed hlen hcp hpos hsign hsigt hsgnt h
      · next h => exact emitLiteralSig_literalSign favorSpeed hlen hcp hpos hsign hsigt hsgnt (Bool.eq_false_iff.2 h)

end

/-! ## A plane (R174, R183) -/

/-- What the encode of plane `b` leaves: the plane's fields at the positions of the layout, nothing changed before them,
and the values' flags for the next plane. -/
structure EncodesPlane (b : Nat) (vs : List Word) (form : PlaneForm) (e e' : EncState) : Prop where
  carries : carries e'.cb (planeLayout b vs e.cp form)
  cp      : e'.cp = (planeLayout b vs e.cp form).fin
  changes : ChangesWithin e.cp (e.cp + (2 ^ 18 + 64)) e.cb e'.cb
  coefs   : e'.coefs = vs.map (coefAt b)

/-- R183: the refinement bits after the Sig part. -/
theorem emitRefinement_emits {b : Nat} {vs : List Word} {cp n : Nat} {form : PlaneForm} {cb reft : BitString}
    {sig : BitString × Nat} (hlen : vs.length ≤ 16384) (hcp : cp ≤ 2 ^ 31) (hfit : formFits vs b form)
    (hsig : EmitsSig b vs cp form cb sig) (hlt : sig.2 + 31 < 2 ^ 32) (hreft : Holds reft 0 (refinementBits b vs))
    (hn : n = (refinementBits b vs).length) :
    carries (emitRefinement sig.1 sig.2 reft n).1 (planeLayout b vs cp form) ∧
    (emitRefinement sig.1 sig.2 reft n).2 = (planeLayout b vs cp form).fin ∧
    ChangesWithin cp (planeLayout b vs cp form).fin cb (emitRefinement sig.1 sig.2 reft n).1 := by
  subst hn
  obtain ⟨hcarries, hfin, hchanges⟩ := hsig
  obtain ⟨hends, hge, hle⟩ := sigLayout_bounds hlen hcp hfit
  have hstart := (numberOfWords_mul hlt).trans hfin
  have hlenRef := length_newcomers_add_refinementBits b vs
  have hwords := numberOfWords_mul (p := (refinementBits b vs).length) (by omega)
  have hword := le_alignWordPos (p := (refinementBits b vs).length) (by omega)
  have hend : (planeLayout b vs cp form).fin =
      (sigLayout b vs cp form).fin + alignWordPos (refinementBits b vs).length :=
    alignWordPos_add _ (sigLayout_fin_mod b vs cp form) (by omega)
  have hcopy := changesWithin_copyWords sig.1 (numberOfWords sig.2) reft (numberOfWords (refinementBits b vs).length)
  refine ⟨?_, ?_, ?_⟩
  · simp only [carries_iff, planeLayout, List.forall_mem_append, List.forall_mem_singleton]
    refine ⟨fun f hf => hcopy.holds (.inl ((hends f hf).trans hstart.ge)) (hcarries f hf), ?_⟩
    rw [← hstart]
    exact holds_copyWords _ _ hreft (by omega)
  · rw [hend, emitRefinement]
    simp only
    omega
  · rw [hend]
    exact (hchanges.mono (le_refl _) (by omega)).trans (hcopy.mono (by omega) (by omega))

theorem holds_writeBits_zero {a a' : BitString} {l : List Bool} (h : a' = writeBits a 0 l) : Holds a' 0 l :=
  h ▸ holds_writeBits a 0 l

/-- R174: one plane. -/
theorem encodePlane_encodes (favorSpeed : Bool) {b : Nat} {vs : List Word} {e : EncState} (hlen : vs.length ≤ 16384)
    (hcp : e.cp ≤ 2 ^ 30) (he : e.coefs = vs.map (coefAt (b + 1))) :
    EncodesPlane b vs (chosenForm favorSpeed vs b) e (encodePlane favorSpeed b e) := by
  obtain ⟨hcb, hpos, hsigPos, hsignLen, hsigt, hsgnt, hreft⟩ := planePass_writes he
  simp only [Nat.zero_add] at hcb hpos hsigPos hsignLen hsigt hsgnt hreft
  have hnew := (length_newcomers_le b vs).trans hlen
  have hcodeLen := length_rlSigCode_le b (newcomers b vs) 3 0 (by omega)
  have hcode : Holds (planePass b e).cb (e.cp + 16) (sigCode b vs) := hcb ▸ holds_writeBits e.cb (e.cp + 16) _
  obtain ⟨cb0, htrial, hsig⟩ := emitSig_emits favorSpeed hlen (hcp.trans (by omega)) hcode hpos hsigPos hsignLen
    (holds_writeBits_zero hsigt) (holds_writeBits_zero hsgnt)
  have hsigEnd := emitSig_end_le favorSpeed e.cp (planePass b e)
  have hsignLe := length_signBits_le b vs
  have href := length_newcomers_add_refinementBits b vs
  have hfit := chosenForm_fits favorSpeed vs b
  have hn : e.coefs.length - (planePass b e).sigPos = (refinementBits b vs).length := by
    rw [he, List.length_map, hsigPos, length_sigBits]
    omega
  obtain ⟨hcarries, hfin, hchanges⟩ := emitRefinement_emits hlen (hcp.trans (by omega)) hfit hsig
    (by rw [hsigPos, hsignLen, length_sigBits] at hsigEnd; omega) (holds_writeBits_zero hreft) hn
  obtain ⟨-, -, hle⟩ := planeLayout_bounds hlen (hcp.trans (by omega)) hfit (c := e.cp)
  have hpass : ChangesWithin e.cp (e.cp + (2 ^ 18 + 64)) e.cb (planePass b e).cb :=
    hcb ▸ (ChangesWithin.writeBits e.cb (e.cp + 16) _).mono (by omega) (by omega)
  exact ⟨hcarries, hfin, (hpass.trans htrial).trans (hchanges.mono (le_refl _) (by omega)),
    (congrArg (flagsAfter b) he).trans (flagsAfter_map_coefAt b vs)⟩

end Sys2Proof.Machine
end

section
/-! The whole encoded payload against the payload format (43_mb_encoder.md R170, R171, R174, R190). -/

namespace Sys2Proof.Machine

/-- What the encode of planes leaves: their fields at the positions of the layout, nothing changed before them, and
nothing changed 2^18 + 64 bits or more past their end. -/
structure EncodesPlanes (n : Nat) (vs : List Word) (form : Nat → PlaneForm) (e e' : EncState) : Prop where
  carries : carries e'.cb (planesLayout form vs n e.cp)
  cp      : e'.cp = (planesLayout form vs n e.cp).fin
  changes : ChangesWithin e.cp ((planesLayout form vs n e.cp).fin + (2 ^ 18 + 64)) e.cb e'.cb

/-- R174: the planes `n - 1` down to 0. -/
theorem encodePlanes_encodes (favorSpeed : Bool) {vs : List Word} (hlen : vs.length ≤ 16384) (n : Nat) :
    ∀ e : EncState, e.cp + n * 2 ^ 17 ≤ 2 ^ 30 → e.coefs = vs.map (coefAt n) →
      EncodesPlanes n vs (chosenForm favorSpeed vs) e (encodePlanes favorSpeed n e) := by
  induction n with
  | zero => exact fun e _ _ => ⟨nofun, rfl, ChangesWithin.refl _ _ _⟩
  | succ n ih =>
    intro e hcp he
    have hfit := chosenForm_fits favorSpeed vs
    obtain ⟨hcarries, hfin, hchanges, hcoefs⟩ := encodePlane_encodes favorSpeed hlen (by omega) he
    obtain ⟨hends, hge, hle⟩ := planeLayout_bounds hlen (c := e.cp) (by omega) (hfit n)
    obtain ⟨hcarries', hfin', hchanges'⟩ := ih (encodePlane favorSpeed n e) (by omega) hcoefs
    rw [hfin] at hcarries' hfin' hchanges'
    obtain ⟨-, hge', -⟩ := planesLayout_bounds hlen n (planeLayout n vs e.cp (chosenForm favorSpeed vs n)).fin
      (by omega) fun b _ => hfit b
    refine ⟨?_, hfin', ?_⟩
    · simp only [carries_iff, planesLayout, List.forall_mem_append]
      exact ⟨fun f hf => hchanges'.holds (.inl (hends f hf)) (hcarries f hf), hcarries'⟩
    · simp only [planesLayout]
      exact (hchanges.mono (le_refl _) (by omega)).trans (hchanges'.mono (by omega) (le_refl _))

/-! ## The largest magnitude (R170) -/

theorem isRunningMax_unique {m0 m m' : Nat} {vs : List Word} (h : isRunningMax m0 vs m) (h' : isRunningMax m0 vs m') :
    m = m' := by
  have hle : ∀ {a c : Nat}, isRunningMax m0 vs a → isRunningMax m0 vs c → a ≤ c := by
    rintro a c ⟨-, -, rfl | ⟨v, hv, rfl⟩⟩ ⟨hge, hall, -⟩
    · exact hge
    · exact hall v hv
  exact Nat.le_antisymm (hle h h') (hle h' h)

theorem absCoef_le_maxMagnitude {vs : List Word} {v : Word} (hv : v ∈ vs) : absCoef v ≤ maxMagnitude vs := by
  obtain ⟨-, hall, -⟩ := isRunningMax_maxAbsAfter vs 0
  exact hall v hv

theorem lt_two_pow_planeCount (m : Nat) : m < 2 ^ planeCount m := by
  unfold planeCount bitlen
  split
  · omega
  · exact Nat.lt_log2_self

/-! ## The payload (R171, R174, R190) -/

section

variable (favorSpeed : Bool) {vs : List Word}

/-- The state before the first plane: the nPlanes field alone, and every value not yet significant. -/
def encodeStart (vs : List Word) : EncState :=
  ⟨writeBits 0 0 (fieldBits (planeCount (maxMagnitude vs) % 32) 5), 5, vs.map (coefAt (planeCount (maxMagnitude vs))),
    0, 0, 0⟩

theorem encodeValues_eq (vs : List Word) : encodeValues favorSpeed vs =
    encodePlanes favorSpeed (planeCount (maxMagnitude vs)) (encodeStart vs) := by
  have hcoefs : vs.map coefOf = vs.map (coefAt (planeCount (maxMagnitude vs))) :=
    List.map_congr_left fun v hv => coefOf_eq_coefAt ((absCoef_le_maxMagnitude hv).trans_lt (lt_two_pow_planeCount _))
  rw [encodeValues, encodeStart, ← setVal_eq_writeBits, hcoefs]
  rfl

/-- The layout of the payload that an encode of `vs` writes. -/
def encodedLayout (vs : List Word) : Layout :=
  payloadLayout (chosenForm favorSpeed vs) (planeCount (maxMagnitude vs)) vs

variable (hlen : vs.length ≤ 16384)

include hlen

theorem encodeStart_encodes : EncodesPlanes (planeCount (maxMagnitude vs)) vs (chosenForm favorSpeed vs)
    (encodeStart vs) (encodeValues favorSpeed vs) := by
  have hplanes := planeCount_le (maxMagnitude_le vs)
  rw [encodeValues_eq]
  exact encodePlanes_encodes favorSpeed hlen _ _ (by simp only [encodeStart]; omega) rfl

theorem encodeValues_cp : (encodeValues favorSpeed vs).cp = (encodedLayout favorSpeed vs).fin :=
  (encodeStart_encodes favorSpeed hlen).cp

theorem encodeValues_carries : carries (encodeValues favorSpeed vs).cb (encodedLayout favorSpeed vs) := by
  obtain ⟨hcarries, -, hchanges⟩ := encodeStart_encodes favorSpeed hlen
  simp only [carries_iff, encodedLayout, payloadLayout, List.forall_mem_cons]
  exact ⟨hchanges.holds (.inl (by simp [encodeStart])) (holds_writeBits _ _ _), hcarries⟩

/-- R190: the size of a payload. -/
theorem encodeValues_cp_le_size : (encodeValues favorSpeed vs).cp ≤ 33 * vs.length + 5445 := by
  have hplanes := planeCount_le (maxMagnitude_le vs)
  have hsum := planesLayout_chosen_le favorSpeed vs (planeCount (maxMagnitude vs)) 5
  have hcount := significantCount_le 0 vs
  have hmul := Nat.mul_le_mul_right (vs.length + 170) hplanes
  rw [encodeValues_cp favorSpeed hlen]
  simp only [encodedLayout, payloadLayout]
  omega

theorem encodeValues_cp_ge : 32 ≤ (encodeValues favorSpeed vs).cp := by
  have hplanes := planeCount_le (maxMagnitude_le vs)
  obtain ⟨-, hge, -⟩ := planesLayout_bounds hlen (planeCount (maxMagnitude vs)) 5 (by omega)
    fun b _ => chosenForm_fits favorSpeed vs b
  have haligned := encodeValues_cp_aligned favorSpeed vs
  have hcp : (encodeValues favorSpeed vs).cp =
      (planesLayout (chosenForm favorSpeed vs) vs (planeCount (maxMagnitude vs)) 5).fin :=
    encodeValues_cp favorSpeed hlen
  omega

/-- R190: the trial codes included, every bit an encode writes is below `n`. -/
theorem encodeValues_cb_lt {n : Nat} (hn : 51 * 16384 + 5509 ≤ n) : (encodeValues favorSpeed vs).cb < 2 ^ n := by
  obtain ⟨-, hcp, hchanges⟩ := encodeStart_encodes favorSpeed hlen
  have hsize := encodeValues_cp_le_size favorSpeed hlen
  rw [hcp] at hsize
  have hstart : ChangesWithin 0 n 0 (encodeStart vs).cb :=
    (ChangesWithin.writeBits 0 0 _).mono (le_refl _) (by rw [length_fieldBits]; omega)
  exact lt_two_pow_of_changesWithin (hstart.trans (hchanges.mono (Nat.zero_le _) (by omega))) (Nat.two_pow_pos n)

end

/-- Settles O57: each plane's emissions leave its fields where the layout has them, later planes write after them, and
the signs are counted once over all planes. -/
theorem encodedPayloadBounds : Obligations.EncodedPayloadBounds := by
  unfold Obligations.EncodedPayloadBounds
  intro favorSpeed vs _ hlen e
  have hcarries := encodeValues_carries favorSpeed hlen
  refine ⟨fun m hm => ?_, ?_, encodeValues_cp_ge favorSpeed hlen, encodeValues_cp_le_size favorSpeed hlen,
    encodeValues_cb_lt favorSpeed hlen (le_refl _)⟩
  · obtain rfl := isRunningMax_unique hm (isRunningMax_maxAbsAfter vs 0)
    exact ⟨planeCount_le (maxMagnitude_le vs), hcarries, encodeValues_cp favorSpeed hlen⟩
  · have hfield : Holds e.cb 0 (fieldBits (planeCount (maxMagnitude vs) % 32) 5) := hcarries _ List.mem_cons_self
    exact (getVal_of_holds 5 hfield).trans (Nat.mod_mod _ _)

end Sys2Proof.Machine
end

section
/-! The decoder's functions as chains of reads (44_mb_decoder.md R199 to R207). Each stops at its first error, so that
it is a chain of `Except.bind`. -/

namespace Sys2Proof.Machine

/-! ## Reads -/

theorem rdVal_succ (rd : Nat → Except Err Bool) (p k : Nat) : rdVal rd p (k + 1) =
    (rd p).bind fun b => (rdVal rd (p + 1) k).bind fun v => .ok (b.toNat + 2 * v) := by
  rw [rdVal]
  rcases rd p with _ | b
  · rfl
  · rcases rdVal rd (p + 1) k with _ | v <;> rfl

theorem refineCoef_eq (y : Payload) (r : RefRegion) (b rp : Nat) (e : Coef) : refineCoef y r b rp e =
    (y.rd (r.start + rp) r.start (r.start + r.count)).bind fun bit =>
      .ok (if bit then { e with mag := e.mag ||| 2 ^ b } else e) := by
  rw [refineCoef]
  rcases y.rd (r.start + rp) r.start (r.start + r.count) with _ | _ | _ <;> rfl

section

variable {σ : Type} (y : Payload) (r : RefRegion) (b : Nat) (step : PosStep σ) {e : Coef} (t : List Coef) (rp : Nat)
  (x : σ)

theorem walk_cons_of_sig (h : e.sig = true) : walk y r b step (e :: t) rp x =
    (refineCoef y r b rp e).bind fun e' => (walk y r b step t (rp + 1) x).bind fun u => .ok (e' :: u.1, u.2) := by
  rw [walk, if_pos h]
  rcases refineCoef y r b rp e with _ | e'
  · rfl
  · rcases walk y r b step t (rp + 1) x with _ | u <;> rfl

theorem walk_cons_of_not (h : e.sig = false) : walk y r b step (e :: t) rp x =
    (step e x).bind fun z => (walk y r b step t rp z.2).bind fun u => .ok (z.1 :: u.1, u.2) := by
  rw [walk, if_neg (by simp [h])]
  rcases step e x with _ | ⟨e', x'⟩
  · rfl
  · simp only [Except.bind]
    rcases walk y r b step t rp x' with _ | u <;> rfl

end

/-! ## The run-length Sig form (R202) -/

theorem rlSymbol_eq (rd : Nat → Except Err Bool) (x : RlPass) : rlSymbol rd x =
    (rd x.c).bind fun bit =>
      if bit then (rdVal rd (x.c + 1) x.k).bind fun cnt => .ok ⟨x.c + 1 + x.k, x.k - 1, cnt, true⟩
      else .ok ⟨x.c + 1, raiseK x.k, 2 ^ x.k, false⟩ := by
  rw [rlSymbol]
  rcases rd x.c with _ | _ | _
  · rfl
  · rfl
  · rcases rdVal rd (x.c + 1) x.k with _ | cnt <;> rfl

theorem rlStep_eq (rd : Nat → Except Err Bool) (b : Nat) (e : Coef) (x : RlPass) : rlStep rd b e x =
    (rlRefill rd x).bind fun x1 =>
      if 0 < x1.rest then .ok (e, { x1 with rest := x1.rest - 1 })
      else (rd x1.c).bind fun neg => .ok (becomeSignificant b neg e, { x1 with c := x1.c + 1, set1 := false }) := by
  rw [rlStep]
  rcases rlRefill rd x with _ | x1
  · rfl
  · simp only [Except.bind]
    rcases rd x1.c with _ | neg <;> rfl

theorem decodeRlSig_eq (y : Payload) (b cp ns : Nat) (cs : List Coef) : decodeRlSig y b cp ns cs =
    (rdVal y.rdHeader (cp + 1) 15).bind fun codeLen =>
      (walk y ⟨alignWordPos (cp + 16 + codeLen), cs.length - ns⟩ b
        (rlStep (fun p => y.rd p (cp + 16) (cp + 16 + codeLen)) b) cs 0 ⟨cp + 16, 3, 0, false⟩).bind fun u =>
          if 0 < u.2.rest then .error ⟨.formatCannotRead, cp⟩ else .ok (u.1, alignWordPos (cp + 16 + codeLen)) := by
  rw [decodeRlSig, Config.lenBits]
  rcases rdVal y.rdHeader (cp + 1) 15 with _ | codeLen
  · rfl
  · simp only [Except.bind]
    generalize walk _ _ _ _ _ _ _ = w
    rcases w with _ | u <;> rfl

/-! ## The literal Sig form (R203 to R205) -/

theorem nextSign_eq (rd : Nat → Except Err Bool) (x : SignDec) (hcount : x.count = 0) (hz : x.zpend = false) :
    nextSign rd x = (rd x.c).bind fun bit =>
      if bit then .ok (true, { x with c := x.c + 1, count := 2 ^ x.k - 1, k := raiseK x.k })
      else (rdVal rd (x.c + 1) x.k).bind fun n =>
        if n = 0 then .ok (false, { x with c := x.c + 1 + x.k, k := x.k - 1 })
        else .ok (true, ⟨x.c + 1 + x.k, x.k - 1, n - 1, true⟩) := by
  rw [nextSign, if_neg (by omega), if_neg (by simp [hz])]
  rcases rd x.c with _ | _ | _
  · rfl
  · rcases rdVal rd (x.c + 1) x.k with _ | _ | n <;> rfl
  · rfl

theorem literalStep_eq {σ : Type} (y : Payload) (sigStart sls b : Nat) (sign : σ → Except Err (Bool × σ)) (e : Coef)
    (x : Nat × σ) : literalStep y sigStart sls b sign e x =
      (y.rd (sigStart + x.1) sigStart (sigStart + sls)).bind fun bit =>
        if bit then (sign x.2).bind fun z => .ok (becomeSignificant b z.1 e, (x.1 + 1, z.2))
        else .ok (e, (x.1 + 1, x.2)) := by
  rw [literalStep]
  rcases y.rd (sigStart + x.1) sigStart (sigStart + sls) with _ | _ | _
  · rfl
  · rfl
  · rcases sign x.2 with _ | z <;> rfl

theorem literalSign_eq (y : Payload) (g0 signLen sg : Nat) : literalSign y g0 signLen sg =
    (y.rd (g0 + sg) g0 (g0 + signLen)).bind fun neg => .ok (neg, sg + 1) := by
  rw [literalSign]
  rcases y.rd (g0 + sg) g0 (g0 + signLen) with _ | neg <;> rfl

theorem decodeLiteral_eq {σ : Type} (y : Payload) (b ns sls sigStart : Nat) (sign : σ → Except Err (Bool × σ)) (x : σ)
    (cs : List Coef) : decodeLiteral y b ns sls sigStart sign x cs =
      (walk y ⟨alignWordPos (sigStart + sls), cs.length - ns⟩ b (literalStep y sigStart sls b sign) cs 0 (0, x)).bind
        fun u => .ok (u.1, alignWordPos (sigStart + sls)) := by
  rw [decodeLiteral]
  generalize walk _ _ _ _ _ _ _ = w
  rcases w with _ | u <;> rfl

theorem decodeRlSign_eq (y : Payload) (b cp ns sls : Nat) (cs : List Coef) : decodeRlSign y b cp ns sls cs =
    (rdVal y.rdHeader (cp + 1) 15).bind fun codeLen =>
      decodeLiteral y b ns sls (alignWordPos (cp + 16 + codeLen))
        (nextSign (fun p => y.rd p (cp + 16) (cp + 16 + codeLen))) ⟨cp + 16, 0, 0, false⟩ cs := by
  rw [decodeRlSign, Config.lenBits]
  rcases rdVal y.rdHeader (cp + 1) 15 with _ | codeLen <;> rfl

theorem decodeLiteralSign_eq (y : Payload) (b cp ns sls : Nat) (cs : List Coef) : decodeLiteralSign y b cp ns sls cs =
    (rdVal y.rdHeader (cp + 1) 15).bind fun signLen =>
      decodeLiteral y b ns sls (alignWordPos (alignWordPos (cp + 16) + signLen))
        (literalSign y (alignWordPos (cp + 16)) signLen) 0 cs := by
  rw [decodeLiteralSign, Config.lenBits]
  rcases rdVal y.rdHeader (cp + 1) 15 with _ | signLen <;> rfl

theorem decodeLiteralSig_eq (y : Payload) (b cp ns : Nat) (cs : List Coef) : decodeLiteralSig y b cp ns cs =
    (rdVal y.rdHeader (cp + 1) 15).bind fun sls =>
      if sls ≠ ns then .error ⟨.formatCannotRead, cp + 1⟩
      else (y.rdHeader (cp + 16)).bind fun bit =>
        if bit then decodeRlSign y b (cp + 16) ns sls cs else decodeLiteralSign y b (cp + 16) ns sls cs := by
  rw [decodeLiteralSig, Config.lenBits]
  rcases rdVal y.rdHeader (cp + 1) 15 with _ | sls
  · rfl
  · rcases y.rdHeader (cp + 16) with _ | _ | _ <;> rfl

/-! ## Planes and values (R200, R201, R207) -/

theorem decodeSig_eq (y : Payload) (b cp ns : Nat) (cs : List Coef) : decodeSig y b cp ns cs =
    (y.rdHeader cp).bind fun bit => if bit then decodeRlSig y b cp ns cs else decodeLiteralSig y b cp ns cs := by
  rw [decodeSig]
  rcases y.rdHeader cp with _ | _ | _ <;> rfl

/-- R207: a plane that would end past the loaded words is missing data. -/
def endCheck (y : Payload) (cs : List Coef) (fin : Nat) : PlaneResult :=
  if y.lim < fin then .error ⟨.missingData, fin⟩ else .ok (cs, fin)

theorem decodePlane_eq (y : Payload) (b cp : Nat) (cs : List Coef) : decodePlane y b cp cs =
    (decodeSig y b cp (countInsignificant cs) cs).bind fun u =>
      endCheck y u.1 (alignWordPos (u.2 + (cs.length - countInsignificant cs))) := by
  rw [decodePlane]
  rcases decodeSig y b cp (countInsignificant cs) cs with _ | u <;> rfl

theorem decodePlanes_succ (y : Payload) (n cp : Nat) (cs : List Coef) : decodePlanes y (n + 1) cp cs =
    (decodePlane y n cp cs).bind fun u => decodePlanes y n u.2 u.1 := by
  rw [decodePlanes]
  rcases decodePlane y n cp cs with _ | u <;> rfl

theorem decodeValues_eq (y : Payload) (bs : Nat) : decodeValues y bs =
    (rdVal y.rdHeader 0 5).bind fun field =>
      (decodePlanes y (planesOf field) 5 (List.replicate bs ⟨0, false, false⟩)).bind fun cs => .ok (field, cs) := by
  rw [decodeValues, Config.nplanesBits]
  rcases rdVal y.rdHeader 0 5 with _ | field
  · rfl
  · simp only [Except.bind]
    rcases decodePlanes y (planesOf field) 5 (List.replicate bs ⟨0, false, false⟩) with _ | cs <;> rfl

end Sys2Proof.Machine
end

section
/-! What a decode reads (44_mb_decoder.md R197 to R199): no bit at or past the loaded words. A payload with fewer words
decodes alike up to a MISSING_DATA at a position that the longer one still has. -/

namespace Sys2Proof.Machine

/-- `y'` is the payload `y` cut to fewer words, or as many. -/
structure Payload.CutOf (y' y : Payload) : Prop where
  lim  : y'.lim ≤ y.lim
  bits : ∀ p, p < y'.lim → BitString.getBit y'.bits p = BitString.getBit y.bits p

/-- `r'` is the result `r`, or MISSING_DATA at a position past `lim'` that is not past `lim`. -/
def CutResult {α : Type} (lim' lim : Nat) (r' r : Except Err α) : Prop :=
  r' = r ∨ lim' < lim ∧ ∃ p, r' = .error ⟨.missingData, p⟩ ∧ lim' ≤ p ∧ p ≤ lim

section

variable {α β : Type} {lim' lim : Nat}

theorem CutResult.refl (r : Except Err α) : CutResult lim' lim r r := .inl rfl

theorem CutResult.bind {r' r : Except Err α} {f' f : α → Except Err β} (h : CutResult lim' lim r' r)
    (hf : ∀ v, CutResult lim' lim (f' v) (f v)) : CutResult lim' lim (r'.bind f') (r.bind f) := by
  rcases h with rfl | ⟨hlt, p, rfl, hp⟩
  · cases r' with
    | error e => exact .inl rfl
    | ok v => exact hf v
  · exact .inr ⟨hlt, p, rfl, hp⟩

theorem CutResult.ite {c : Prop} [Decidable c] {a' a b' b : Except Err α} (ha : CutResult lim' lim a' a)
    (hb : CutResult lim' lim b' b) : CutResult lim' lim (if c then a' else b') (if c then a else b) := by
  split
  · exact ha
  · exact hb

/-- With no words less the results are the same. -/
theorem CutResult.eq {r' r : Except Err α} (h : CutResult lim' lim r' r) (hlim : lim ≤ lim') : r' = r :=
  h.resolve_right fun ⟨hlt, _⟩ => absurd hlt (Nat.not_lt.2 hlim)

theorem rdVal_cut {rd' rd : Nat → Except Err Bool} (h : ∀ p, CutResult lim' lim (rd' p) (rd p)) (k : Nat) :
    ∀ p, CutResult lim' lim (rdVal rd' p k) (rdVal rd p k) := by
  induction k with
  | zero => exact fun p => .refl _
  | succ k ih =>
    intro p
    rw [rdVal_succ, rdVal_succ]
    exact (h p).bind fun b => (ih (p + 1)).bind fun v => .refl _

theorem rlStep_cut {rd' rd : Nat → Except Err Bool} (h : ∀ p, CutResult lim' lim (rd' p) (rd p)) (b : Nat) (e : Coef)
    (x : RlPass) : CutResult lim' lim (rlStep rd' b e x) (rlStep rd b e x) := by
  have hsymbol : CutResult lim' lim (rlSymbol rd' x) (rlSymbol rd x) := by
    rw [rlSymbol_eq, rlSymbol_eq]
    exact (h x.c).bind fun bit => .ite ((rdVal_cut h _ _).bind fun _ => .refl _) (.refl _)
  rw [rlStep_eq, rlStep_eq]
  exact (CutResult.ite (.refl _) hsymbol).bind fun x1 => .ite (.refl _) ((h x1.c).bind fun _ => .refl _)

theorem nextSign_cut {rd' rd : Nat → Except Err Bool} (h : ∀ p, CutResult lim' lim (rd' p) (rd p)) (x : SignDec) :
    CutResult lim' lim (nextSign rd' x) (nextSign rd x) := by
  by_cases hcount : 0 < x.count
  · rw [nextSign, nextSign, if_pos hcount, if_pos hcount]
    exact .refl _
  · cases hz : x.zpend with
    | true =>
      rw [nextSign, nextSign, if_neg hcount, if_neg hcount, if_pos hz, if_pos hz]
      exact .refl _
    | false =>
      rw [nextSign_eq rd' x (by omega) hz, nextSign_eq rd x (by omega) hz]
      exact (h x.c).bind fun bit => .ite (.refl _) ((rdVal_cut h _ _).bind fun n => .refl _)

end

section

variable {y' y : Payload} (h : y'.CutOf y)

include h

theorem rdHeader_cut (p : Nat) : CutResult y'.lim y.lim (y'.rdHeader p) (y.rdHeader p) := by
  obtain ⟨hlim, hbits⟩ := h
  unfold Payload.rdHeader
  by_cases hp : y'.lim ≤ p
  · rw [if_pos hp]
    by_cases hp' : y.lim ≤ p
    · rw [if_pos hp']
      exact .refl _
    · exact .inr ⟨by omega, p, rfl, hp, by omega⟩
  · rw [if_neg hp, if_neg (by omega), hbits p (by omega)]
    exact .refl _

theorem rd_cut (lo hi p : Nat) : CutResult y'.lim y.lim (y'.rd p lo hi) (y.rd p lo hi) :=
  .ite (.refl _) (rdHeader_cut h p)

theorem walk_cut {σ : Type} {step' step : PosStep σ} (hstep : ∀ e x, CutResult y'.lim y.lim (step' e x) (step e x))
    (r : RefRegion) (b : Nat) (cs : List Coef) :
    ∀ rp x, CutResult y'.lim y.lim (walk y' r b step' cs rp x) (walk y r b step cs rp x) := by
  induction cs with
  | nil => exact fun rp x => .refl _
  | cons e t ih =>
    intro rp x
    cases he : e.sig with
    | true =>
      rw [walk_cons_of_sig (h := he), walk_cons_of_sig (h := he), refineCoef_eq, refineCoef_eq]
      exact ((rd_cut h _ _ _).bind fun _ => .refl _).bind fun e' => (ih _ _).bind fun _ => .refl _
    | false =>
      rw [walk_cons_of_not (h := he), walk_cons_of_not (h := he)]
      exact (hstep e x).bind fun z => (ih _ _).bind fun _ => .refl _

theorem literalSign_cut (g0 signLen sg : Nat) :
    CutResult y'.lim y.lim (literalSign y' g0 signLen sg) (literalSign y g0 signLen sg) := by
  rw [literalSign_eq, literalSign_eq]
  exact (rd_cut h _ _ _).bind fun _ => .refl _

theorem decodeLiteral_cut {σ : Type} {sign' sign : σ → Except Err (Bool × σ)}
    (hsign : ∀ x, CutResult y'.lim y.lim (sign' x) (sign x)) (b ns sls sigStart : Nat) (x : σ) (cs : List Coef) :
    CutResult y'.lim y.lim (decodeLiteral y' b ns sls sigStart sign' x cs)
      (decodeLiteral y b ns sls sigStart sign x cs) := by
  rw [decodeLiteral_eq, decodeLiteral_eq]
  refine (walk_cut h (fun e z => ?_) _ _ _ _ _).bind fun _ => .refl _
  rw [literalStep_eq, literalStep_eq]
  exact (rd_cut h _ _ _).bind fun bit => .ite ((hsign z.2).bind fun _ => .refl _) (.refl _)

theorem decodeSig_cut (b cp ns : Nat) (cs : List Coef) :
    CutResult y'.lim y.lim (decodeSig y' b cp ns cs) (decodeSig y b cp ns cs) := by
  have hlen := rdVal_cut (rdHeader_cut h) 15
  have hrl : CutResult y'.lim y.lim (decodeRlSig y' b cp ns cs) (decodeRlSig y b cp ns cs) := by
    rw [decodeRlSig_eq, decodeRlSig_eq]
    exact (hlen _).bind fun codeLen => (walk_cut h (rlStep_cut (rd_cut h _ _) b) _ _ _ _ _).bind fun _ => .refl _
  have hrlSign (cp sls : Nat) :
      CutResult y'.lim y.lim (decodeRlSign y' b cp ns sls cs) (decodeRlSign y b cp ns sls cs) := by
    rw [decodeRlSign_eq, decodeRlSign_eq]
    exact (hlen _).bind fun codeLen => decodeLiteral_cut h (nextSign_cut (rd_cut h _ _)) _ _ _ _ _ _
  have hliteralSign (cp sls : Nat) :
      CutResult y'.lim y.lim (decodeLiteralSign y' b cp ns sls cs) (decodeLiteralSign y b cp ns sls cs) := by
    rw [decodeLiteralSign_eq, decodeLiteralSign_eq]
    exact (hlen _).bind fun signLen =>
      decodeLiteral_cut h (literalSign_cut h _ _) _ _ _ _ _ _
  rw [decodeSig_eq, decodeSig_eq, decodeLiteralSig_eq, decodeLiteralSig_eq]
  exact (rdHeader_cut h cp).bind fun bit => .ite hrl ((hlen _).bind fun sls =>
    .ite (.refl _) ((rdHeader_cut h _).bind fun bit => .ite (hrlSign _ _) (hliteralSign _ _)))

theorem decodePlane_cut (b cp : Nat) (cs : List Coef) :
    CutResult y'.lim y.lim (decodePlane y' b cp cs) (decodePlane y b cp cs) := by
  have hlim := h.lim
  rw [decodePlane_eq, decodePlane_eq]
  refine (decodeSig_cut h _ _ _ _).bind fun u => ?_
  generalize alignWordPos (u.2 + (cs.length - countInsignificant cs)) = fin
  unfold endCheck
  by_cases hfin : y'.lim < fin
  · rw [if_pos hfin]
    by_cases hfin' : y.lim < fin
    · rw [if_pos hfin']
      exact .refl _
    · exact .inr ⟨by omega, fin, rfl, by omega, by omega⟩
  · rw [if_neg hfin, if_neg (by omega)]
    exact .refl _

theorem decodePlanes_cut (n : Nat) :
    ∀ cp cs, CutResult y'.lim y.lim (decodePlanes y' n cp cs) (decodePlanes y n cp cs) := by
  induction n with
  | zero => exact fun cp cs => .refl _
  | succ n ih =>
    intro cp cs
    rw [decodePlanes_succ, decodePlanes_succ]
    exact (decodePlane_cut h _ _ _).bind fun u => ih _ _

theorem decodeValues_cut (bs : Nat) : CutResult y'.lim y.lim (decodeValues y' bs) (decodeValues y bs) := by
  rw [decodeValues_eq, decodeValues_eq]
  exact (rdVal_cut (rdHeader_cut h) _ _).bind fun field => (decodePlanes_cut h _ _ _).bind fun _ => .refl _

end

/-- R197: the bits at and past the loaded words do not matter. -/
theorem decodeValues_congr {bits bits' : BitString} {lim : Nat}
    (h : ∀ p, p < lim → BitString.getBit bits p = BitString.getBit bits' p) (bs : Nat) :
    decodeValues ⟨bits, lim⟩ bs = decodeValues ⟨bits', lim⟩ bs :=
  (decodeValues_cut (y' := ⟨bits, lim⟩) (y := ⟨bits', lim⟩) ⟨le_refl _, h⟩ bs).eq (le_refl _)

end Sys2Proof.Machine
end

section
/-! MB_DECODE's passes over a plane that carries the payload format (44_mb_decoder.md R202 to R206). -/

namespace Sys2Proof.Machine

/-! ## The coefficients between planes (R200, R208) -/

/-- A value as the decoder knows it once the planes from `n` up are read: the magnitude's bits from `n` up, and the sign
if one of them is 1. -/
def decodedAt (n : Nat) (v : Word) : Coef :=
  ⟨absCoef v / 2 ^ n * 2 ^ n, decide (2 ^ n ≤ absCoef v) && decide (s32 v < 0), decide (2 ^ n ≤ absCoef v)⟩

/-- The bits from `b` up are those from `b + 1` up and bit `b`. -/
theorem high_bits_succ (m b : Nat) :
    m / 2 ^ b * 2 ^ b =
      if m.testBit b then m / 2 ^ (b + 1) * 2 ^ (b + 1) ||| 2 ^ b else m / 2 ^ (b + 1) * 2 ^ (b + 1) := by
  have hbit : m / 2 ^ b = 2 * (m / 2 ^ (b + 1)) + (m.testBit b).toNat := by
    rw [Nat.toNat_testBit, Nat.pow_succ, ← Nat.div_div_eq_div_mul]
    omega
  have hor : m / 2 ^ (b + 1) * 2 ^ (b + 1) ||| 2 ^ b = m / 2 ^ (b + 1) * 2 ^ (b + 1) + 2 ^ b := by
    rw [Nat.mul_comm]
    exact (Nat.two_pow_add_eq_or_of_lt (Nat.pow_lt_pow_right (by omega) (Nat.lt_succ_self b)) _).symm
  rw [hor, hbit, Nat.add_mul, Nat.mul_comm 2, Nat.mul_assoc, ← Nat.pow_succ']
  split
  · next h => rw [h, Bool.toNat_true, Nat.one_mul]
  · next h => rw [Bool.eq_false_iff.2 h, Bool.toNat_false, Nat.zero_mul, Nat.add_zero]

section

variable {b : Nat} {v : Word}

theorem two_pow_le_of_significant (h : significantBefore b v = true) : 2 ^ (b + 1) ≤ absCoef v ∧ 2 ^ b ≤ absCoef v :=
  have hle : 2 ^ (b + 1) ≤ absCoef v := of_decide_eq_true h
  ⟨hle, (two_pow_le_iff _ _).2 (.inl hle)⟩

/-- R206: the refinement bit gives a significant value's next bit. -/
theorem decodedAt_of_significant (h : significantBefore b v = true) :
    (if planeBit b v then { decodedAt (b + 1) v with mag := (decodedAt (b + 1) v).mag ||| 2 ^ b }
      else decodedAt (b + 1) v) = decodedAt b v := by
  obtain ⟨hhigh, hlow⟩ := two_pow_le_of_significant h
  have hmag := high_bits_succ (absCoef v) b
  unfold planeBit
  split
  all_goals
    rename_i hbit
    simp [decodedAt, hhigh, hlow, hmag, hbit]

/-- R202, R204, R205: a newcomer with a 1 becomes significant with its sign. -/
theorem decodedAt_of_one (hv : planeBit b v = true) :
    becomeSignificant b (decide (s32 v < 0)) (decodedAt (b + 1) v) = decodedAt b v := by
  have hlow : 2 ^ b ≤ absCoef v := (two_pow_le_iff _ _).2 (.inr hv)
  have hmag := (high_bits_succ (absCoef v) b).trans (if_pos hv)
  simp only [becomeSignificant, decodedAt, hmag, hlow, decide_true, Bool.true_and]

/-- A newcomer with a 0 stays as it is. -/
theorem decodedAt_of_zero (h : significantBefore b v = false) (hv : planeBit b v = false) :
    decodedAt (b + 1) v = decodedAt b v := by
  have hhigh : ¬ 2 ^ (b + 1) ≤ absCoef v := of_decide_eq_false h
  have hlow : ¬ 2 ^ b ≤ absCoef v := fun hle =>
    ((two_pow_le_iff _ _).1 hle).elim hhigh (Bool.eq_false_iff.1 hv)
  have hmag := (high_bits_succ (absCoef v) b).trans (if_neg (Bool.eq_false_iff.1 hv))
  simp only [decodedAt, hmag, hhigh, hlow]

end

/-! ## Fields as a reader answers them (R199) -/

section

variable {y : Payload} {p : Nat} {l : List Bool}

theorem reads_rdHeader (h : Holds y.bits p l) (hlim : p + l.length ≤ y.lim) : Reads y.rdHeader p l :=
  h.imp fun q b _ hlt hq => by rw [Payload.rdHeader, if_neg (by omega), hq]

theorem reads_rd {lo hi : Nat} (h : Holds y.bits p l) (hlim : p + l.length ≤ y.lim) (hlo : lo ≤ p)
    (hhi : p + l.length ≤ hi) : Reads (fun q => y.rd q lo hi) p l :=
  (reads_rdHeader h hlim).imp fun q b hge hlt hq => (if_neg (by omega)).trans hq

theorem rdVal_fieldBits {rd : Nat → Except Err Bool} {p v k : Nat} (h : Reads rd p (fieldBits v k)) (hv : v < 2 ^ k) :
    rdVal rd p k = .ok v := by
  rw [rdVal_of_reads k h, Nat.mod_eq_of_lt hv]

end

/-! ## The walk (R202, R204 to R206) -/

/-- A walk whose step decides every newcomer right, keeping `P` of its state and the newcomers to come, decides every
value of the plane right. -/
theorem walk_decodes {σ : Type} {y : Payload} {r : RefRegion} {b : Nat} {step : PosStep σ} {P : σ → List Word → Prop}
    (hstep : ∀ v t x, significantBefore b v = false → P x (v :: t) →
      ∃ x', step (decodedAt (b + 1) v) x = .ok (decodedAt b v, x') ∧ P x' t) (vs : List Word) :
    ∀ rp x, Reads (fun q => y.rd q r.start (r.start + r.count)) (r.start + rp) (refinementBits b vs) →
      P x (newcomers b vs) →
      ∃ x', walk y r b step (vs.map (decodedAt (b + 1))) rp x = .ok (vs.map (decodedAt b), x') ∧ P x' [] := by
  induction vs with
  | nil => exact fun rp x _ hx => ⟨x, rfl, hx⟩
  | cons v t ih =>
    intro rp x href hx
    cases hs : significantBefore b v with
    | true =>
      rw [newcomers_cons_of_significant t hs] at hx
      rw [refinementBits_cons_of_significant t hs] at href
      obtain ⟨hbit : y.rd (r.start + rp) _ _ = _, hrest⟩ := standsAt_cons.1 href
      obtain ⟨x', hwalk, hx'⟩ := ih (rp + 1) x hrest hx
      refine ⟨x', ?_, hx'⟩
      rw [List.map_cons, walk_cons_of_sig (h := hs), refineCoef_eq, hbit, hwalk]
      simp only [Except.bind, decodedAt_of_significant hs, List.map_cons]
    | false =>
      rw [newcomers_cons_of_not t hs] at hx
      rw [refinementBits_cons_of_not t hs] at href
      obtain ⟨x1, hv, hx1⟩ := hstep v _ x hs hx
      obtain ⟨x', hwalk, hx'⟩ := ih rp x1 href hx1
      refine ⟨x', ?_, hx'⟩
      rw [List.map_cons, walk_cons_of_not (h := hs), hv]
      simp only [Except.bind, hwalk, List.map_cons]

/-! ## The run-length Sig form (R202) -/

theorem raiseK_eq {k : Nat} (h : k ≤ 32) : raiseK k = afterFullRun k := growK_eq h

/-- What a pass of R202 is about to read: after the zeros of the current run, the value that ends it, if one does, and
then the code of the values after it. -/
def RlReady (rd : Nat → Except Err Bool) (b : Nat) (x : RlPass) (vs : List Word) : Prop :=
  x.k ≤ 32 ∧ ∃ zs rest, vs = zs ++ rest ∧ zs.length = x.rest ∧ (∀ z ∈ zs, planeBit b z = false) ∧
    if x.set1 then ∀ v t, rest = v :: t →
      planeBit b v = true ∧ Reads rd x.c (decide (s32 v < 0) :: rlSigCode b x.k 0 t)
    else Reads rd x.c (rlSigCode b x.k 0 rest)

section

variable {rd : Nat → Except Err Bool} {b : Nat} {vs : List Word} {x : RlPass}

/-- R202: a symbol of the code. -/
theorem rlSymbol_ready (hk : x.k ≤ 32) (h : Reads rd x.c (rlSigCode b x.k 0 vs)) (hne : vs ≠ []) :
    ∃ x1, rlSymbol rd x = .ok x1 ∧ RlReady rd b x1 vs ∧ (x1.rest = 0 → x1.set1 = true) := by
  have hpow := Nat.two_pow_pos x.k
  have hpred : x.k - 1 ≤ 32 := (Nat.sub_le _ _).trans hk
  rw [rlSymbol_eq]
  rcases rlSigCode_symbol b x.k vs 0 hpow with ⟨zs, rest, rfl, hz, hn, hcode⟩ | ⟨zs, v, rest, rfl, hz, hv, hn, hcode⟩ |
    ⟨hz, hn, hcode⟩
  all_goals rw [hcode] at h
  · obtain ⟨hbit, hrest⟩ := standsAt_cons.1 h
    rw [hbit]
    refine ⟨_, rfl, ⟨raiseK_eq hk ▸ afterFullRun_le x.k, zs, rest, rfl, (Nat.zero_add _).symm.trans hn, hz, ?_⟩, ?_⟩
    · simp only [Bool.false_eq_true, if_false, raiseK_eq hk]
      exact hrest
    · exact fun h0 => absurd h0 (by simp only; omega)
  · rw [Nat.zero_add] at hn h
    obtain ⟨hbit, hcount, hrest⟩ := by simpa only [List.cons_append, standsAt_cons, standsAt_append] using h
    rw [length_fieldBits] at hrest
    rw [hbit]
    simp only [Except.bind, if_true, rdVal_fieldBits hcount hn]
    refine ⟨_, rfl, ⟨hpred, zs, v :: rest, rfl, rfl, hz, ?_⟩, fun _ => rfl⟩
    simp only [if_true]
    rintro w t hw
    cases hw
    exact ⟨hv, standsAt_cons.2 hrest⟩
  · rw [Nat.zero_add] at hn h
    obtain ⟨hbit, hcount, -⟩ := by simpa only [List.cons_append, standsAt_cons, standsAt_append] using h
    rw [hbit]
    simp only [Except.bind, if_true, rdVal_fieldBits hcount hn]
    exact ⟨_, rfl, ⟨hpred, vs, [], (List.append_nil vs).symm, rfl, hz, fun v t hnil => nomatch hnil⟩, fun _ => rfl⟩

theorem rlRefill_ready (h : RlReady rd b x vs) (hne : vs ≠ []) :
    ∃ x1, rlRefill rd x = .ok x1 ∧ RlReady rd b x1 vs ∧ (x1.rest = 0 → x1.set1 = true) := by
  unfold rlRefill
  split
  · next hrun => exact ⟨x, rfl, h, fun h0 => hrun.resolve_left (by omega)⟩
  · next hrun =>
    obtain ⟨hk, zs, rest, rfl, hlen, -, hcode⟩ := h
    obtain rfl := List.eq_nil_of_length_eq_zero (by omega : zs.length = 0)
    rw [if_neg (by tauto)] at hcode
    exact rlSymbol_ready hk hcode hne

/-- R202: one newcomer. -/
theorem rlStep_decodes (v : Word) (t : List Word) (x : RlPass) (hs : significantBefore b v = false)
    (h : RlReady rd b x (v :: t)) :
    ∃ x', rlStep rd b (decodedAt (b + 1) v) x = .ok (decodedAt b v, x') ∧ RlReady rd b x' t := by
  obtain ⟨x1, hrefill, ⟨hk, zs, rest, hvs, hlen, hz, hcode⟩, hend⟩ := rlRefill_ready h (List.cons_ne_nil v t)
  rw [rlStep_eq, hrefill]
  simp only [Except.bind]
  cases zs with
  | cons z zs =>
    obtain ⟨rfl, rfl⟩ := List.cons.inj hvs
    obtain ⟨hv, hz⟩ := List.forall_mem_cons.1 hz
    rw [List.length_cons] at hlen
    rw [if_pos (by omega), decodedAt_of_zero hs hv]
    exact ⟨_, rfl, hk, zs, rest, rfl, by simp only; omega, hz, hcode⟩
  | nil =>
    have h0 : x1.rest = 0 := hlen.symm
    rw [if_pos (hend h0)] at hcode
    obtain ⟨hv, hreads⟩ := hcode v t hvs.symm
    obtain ⟨hneg, hrest⟩ := standsAt_cons.1 hreads
    rw [if_neg (by omega), hneg]
    simp only [decodedAt_of_one hv]
    exact ⟨_, rfl, hk, [], t, rfl, hlen, nofun, hrest⟩

end

/-! ## The sign codes (R204, R205) -/

/-- What a sign code of R204 is about to answer: the negative signs of the current run, the positive sign that ends it,
if one does, and then the code of the signs after it. -/
def SignReady (rd : Nat → Except Err Bool) (x : SignDec) (signs : List Bool) : Prop :=
  x.k ≤ 32 ∧ ∃ rest, signs = List.replicate x.count true ++ rest ∧
    if x.zpend then ∀ s t, rest = s :: t → s = false ∧ Reads rd x.c (rlSignCode x.k 0 t)
    else Reads rd x.c (rlSignCode x.k 0 rest)

/-- A decoder of signs answers the signs of its state one by one. -/
def DecodesSigns {σ : Type} (sign : σ → Except Err (Bool × σ)) (Q : σ → List Bool → Prop) : Prop :=
  ∀ s signs x, Q x (s :: signs) → ∃ x', sign x = .ok (s, x') ∧ Q x' signs

theorem nextSign_symbol {rd : Nat → Except Err Bool} {x : SignDec} {s : Bool} {signs : List Bool} (hk : x.k ≤ 32)
    (hcount : x.count = 0) (hz : x.zpend = false) (h : Reads rd x.c (rlSignCode x.k 0 (s :: signs))) :
    ∃ x', nextSign rd x = .ok (s, x') ∧ SignReady rd x' signs := by
  have hpow := Nat.two_pow_pos x.k
  have hpred : x.k - 1 ≤ 32 := (Nat.sub_le _ _).trans hk
  rw [nextSign_eq rd x hcount hz]
  rcases rlSignCode_symbol x.k (s :: signs) 0 hpow with ⟨n, rest, hsigns, hn, hcode⟩ | ⟨n, rest, hsigns, hn, hcode⟩ |
    ⟨n, hsigns, hn, hcode⟩
  all_goals rw [hcode] at h
  · obtain ⟨m, rfl⟩ : ∃ m, n = m + 1 := ⟨n - 1, by omega⟩
    obtain ⟨rfl, rfl⟩ := List.cons.inj hsigns
    obtain ⟨hbit, hrest⟩ := standsAt_cons.1 h
    have hm : 2 ^ x.k - 1 = m := by omega
    rw [hbit]
    refine ⟨_, rfl, raiseK_eq hk ▸ afterFullRun_le x.k, rest, by rw [hm]; rfl, ?_⟩
    simp only [hz, Bool.false_eq_true, if_false, raiseK_eq hk]
    exact hrest
  · rw [Nat.zero_add] at hn h
    obtain ⟨hbit, hfield, hrest⟩ := by simpa only [List.cons_append, standsAt_cons, standsAt_append] using h
    rw [length_fieldBits] at hrest
    rw [hbit]
    simp only [Except.bind, Bool.false_eq_true, if_false, rdVal_fieldBits hfield hn]
    cases n with
    | zero =>
      obtain ⟨rfl, rfl⟩ := List.cons.inj hsigns
      refine ⟨_, rfl, hpred, signs, by rw [hcount]; rfl, ?_⟩
      simp only [hz, Bool.false_eq_true, if_false]
      exact hrest
    | succ m =>
      obtain ⟨rfl, rfl⟩ := List.cons.inj hsigns
      refine ⟨_, rfl, hpred, false :: rest, rfl, ?_⟩
      simp only [if_true]
      rintro u t hu
      cases hu
      exact ⟨rfl, hrest⟩
  · obtain ⟨m, rfl⟩ : ∃ m, n = m + 1 := by
      cases n with
      | zero => cases hsigns
      | succ m => exact ⟨m, rfl⟩
    obtain ⟨rfl, rfl⟩ := List.cons.inj hsigns
    rw [Nat.zero_add] at hn h
    rw [if_neg (by omega)] at h
    obtain ⟨hbit, hfield⟩ := standsAt_cons.1 h
    rw [hbit]
    simp only [Except.bind, Bool.false_eq_true, if_false, rdVal_fieldBits hfield hn]
    exact ⟨_, rfl, hpred, [], (List.append_nil _).symm, fun s t hnil => nomatch hnil⟩

/-- R204: one sign. -/
theorem nextSign_decodes (rd : Nat → Except Err Bool) : DecodesSigns (nextSign rd) (SignReady rd) := by
  intro s signs x ⟨hk, rest, hsigns, hcode⟩
  cases hcount : x.count with
  | succ n =>
    rw [hcount] at hsigns
    obtain ⟨rfl, rfl⟩ := List.cons.inj hsigns
    rw [nextSign, if_pos (by omega)]
    exact ⟨_, rfl, hk, rest, by simp only [hcount, Nat.add_sub_cancel]; rfl, hcode⟩
  | zero =>
    rw [hcount] at hsigns
    change s :: signs = rest at hsigns
    subst hsigns
    cases hz : x.zpend with
    | true =>
      rw [if_pos hz] at hcode
      obtain ⟨rfl, hreads⟩ := hcode s signs rfl
      rw [nextSign, if_neg (by omega), if_pos hz]
      refine ⟨_, rfl, hk, signs, by rw [hcount]; rfl, ?_⟩
      simp only [Bool.false_eq_true, if_false]
      exact hreads
    | false =>
      rw [if_neg (Bool.eq_false_iff.1 hz)] at hcode
      exact nextSign_symbol hk hcount hz hcode

/-- R205: one literal sign. -/
theorem literalSign_decodes (y : Payload) (g0 signLen : Nat) : DecodesSigns (literalSign y g0 signLen)
    fun sg signs => Reads (fun q => y.rd q g0 (g0 + signLen)) (g0 + sg) signs := by
  intro s signs sg h
  obtain ⟨hsign : y.rd (g0 + sg) _ _ = _, hrest⟩ := standsAt_cons.1 h
  rw [literalSign_eq, hsign]
  exact ⟨sg + 1, rfl, hrest⟩

/-! ## The literal Sig form (R203 to R205) -/

/-- What a literal pass is about to read: the significance bits of the newcomers to come, and their signs. -/
def LiteralReady {σ : Type} (y : Payload) (sigStart sls b : Nat) (Q : σ → List Bool → Prop) (x : Nat × σ)
    (vs : List Word) : Prop :=
  Reads (fun q => y.rd q sigStart (sigStart + sls)) (sigStart + x.1) (vs.map (planeBit b)) ∧
    Q x.2 ((vs.filter (planeBit b)).map fun v => decide (s32 v < 0))

/-- R204, R205: one newcomer. -/
theorem literalStep_decodes {σ : Type} {sign : σ → Except Err (Bool × σ)} {Q : σ → List Bool → Prop}
    (hsign : DecodesSigns sign Q) (y : Payload) (sigStart sls b : Nat) (v : Word) (t : List Word) (x : Nat × σ)
    (hs : significantBefore b v = false) (h : LiteralReady y sigStart sls b Q x (v :: t)) :
    ∃ x', literalStep y sigStart sls b sign (decodedAt (b + 1) v) x = .ok (decodedAt b v, x') ∧
      LiteralReady y sigStart sls b Q x' t := by
  obtain ⟨hbits, hsigns⟩ := h
  obtain ⟨hbit : y.rd (sigStart + x.1) _ _ = _, hrest⟩ := standsAt_cons.1 hbits
  rw [literalStep_eq, hbit]
  cases hv : planeBit b v with
  | true =>
    rw [List.filter_cons_of_pos hv] at hsigns
    obtain ⟨x', hx', hQ⟩ := hsign _ _ _ hsigns
    simp only [Except.bind, if_true, hx', decodedAt_of_one hv]
    exact ⟨_, rfl, hrest, hQ⟩
  | false =>
    rw [List.filter_cons_of_neg (Bool.eq_false_iff.1 hv)] at hsigns
    simp only [Except.bind, Bool.false_eq_true, if_false, decodedAt_of_zero hs hv]
    exact ⟨_, rfl, hrest, hsigns⟩

end Sys2Proof.Machine
end

section
/-! MB_DECODE of a payload that carries the payload format (30_encoding.md R86, R87; 44_mb_decoder.md R197 to R211). -/

namespace Sys2Proof.Machine

/-! ## One plane (R201 to R207) -/

/-- The payload carries plane `b` of the values from `c` on, in a form that fits, and all its words are loaded. -/
structure PlaneLoaded (y : Payload) (b : Nat) (vs : List Word) (c : Nat) (form : PlaneForm) : Prop where
  sig  : carries y.bits (sigLayout b vs c form)
  ref  : Holds y.bits (sigLayout b vs c form).fin (refinementBits b vs)
  lim  : (sigLayout b vs c form).fin + (refinementBits b vs).length ≤ y.lim
  ends : (sigLayout b vs c form).EndsBefore
  fits : formFits vs b form
  size : vs.length ≤ 16384

theorem length_map_sub_newcomers (b : Nat) (vs : List Word) (f : Word → Coef) :
    (vs.map f).length - (newcomers b vs).length = (refinementBits b vs).length := by
  have hlen := length_newcomers_add_refinementBits b vs
  rw [List.length_map]
  omega

section

variable {y : Payload} {b : Nat} {vs : List Word} {c : Nat} {form : PlaneForm}

/-- A field of the Sig part lies in the loaded words. -/
theorem PlaneLoaded.field (h : PlaneLoaded y b vs c form) {p : Nat} {l : List Bool}
    (hf : ⟨p, l⟩ ∈ (sigLayout b vs c form).fields) : Holds y.bits p l ∧ p + l.length ≤ y.lim :=
  ⟨h.sig _ hf, (h.ends _ hf).trans ((Nat.le_add_right _ _).trans h.lim)⟩

/-- R199: a header field of the Sig part. -/
theorem PlaneLoaded.header (h : PlaneLoaded y b vs c form) {p : Nat} {l : List Bool}
    (hf : ⟨p, l⟩ ∈ (sigLayout b vs c form).fields) : Reads y.rdHeader p l :=
  reads_rdHeader (h.field hf).1 (h.field hf).2

/-- R199: a code or a list of bits of the Sig part, read in its own region. -/
theorem PlaneLoaded.region (h : PlaneLoaded y b vs c form) {p : Nat} {l : List Bool}
    (hf : ⟨p, l⟩ ∈ (sigLayout b vs c form).fields) : Reads (fun q => y.rd q p (p + l.length)) p l :=
  reads_rd (h.field hf).1 (h.field hf).2 (le_refl _) (le_refl _)

/-- R206: the refinement bits, read in their region. -/
theorem PlaneLoaded.refinement (h : PlaneLoaded y b vs c form) : Reads (fun q => y.rd q (sigLayout b vs c form).fin
    ((sigLayout b vs c form).fin + ((vs.map (decodedAt (b + 1))).length - (newcomers b vs).length)))
    (sigLayout b vs c form).fin (refinementBits b vs) := by
  rw [length_map_sub_newcomers]
  exact reads_rd h.ref h.lim (le_refl _) (le_refl _)

theorem rlReady_start {rd : Nat → Except Err Bool} {p : Nat} (h : Reads rd p (sigCode b vs)) :
    RlReady rd b ⟨p, 3, 0, false⟩ (newcomers b vs) :=
  ⟨by simp only; omega, [], newcomers b vs, rfl, rfl, nofun, h⟩

theorem signReady_start {rd : Nat → Except Err Bool} {p : Nat} (h : Reads rd p (signCodeBits b vs)) :
    SignReady rd ⟨p, 0, 0, false⟩ (signBits b vs) :=
  ⟨Nat.zero_le _, signBits b vs, rfl, h⟩

/-- R202: the run-length Sig form of a plane. -/
theorem decodeRlSig_decodes (h : PlaneLoaded y b vs c .rlSig) :
    decodeRlSig y b c (newcomers b vs).length (vs.map (decodedAt (b + 1))) =
      .ok (vs.map (decodedAt b), (sigLayout b vs c .rlSig).fin) := by
  have hlen : rdVal y.rdHeader (c + 1) 15 = .ok (sigCode b vs).length :=
    rdVal_fieldBits (h.header (by simp [sigLayout])) (Nat.lt_succ_of_le h.fits)
  have hcode : Reads (fun q => y.rd q (c + 16) (c + 16 + (sigCode b vs).length)) (c + 16) (sigCode b vs) :=
    h.region (by simp [sigLayout])
  obtain ⟨x', hwalk, -, zs, rest, hnil, hrest, -⟩ := walk_decodes (r := ⟨_, _⟩) rlStep_decodes vs 0
    ⟨c + 16, 3, 0, false⟩ h.refinement (rlReady_start hcode)
  have h0 : ¬ 0 < x'.rest := by
    rw [(List.append_eq_nil_iff.1 hnil.symm).1] at hrest
    exact Nat.not_lt.2 hrest.ge
  rw [decodeRlSig_eq, hlen]
  simp only [Except.bind]
  simp only [sigLayout] at hwalk
  rw [hwalk]
  simp only [h0, if_false, sigLayout]

/-- R204, R205: the walk of a literal Sig form. -/
theorem decodeLiteral_decodes {σ : Type} {sign : σ → Except Err (Bool × σ)} {Q : σ → List Bool → Prop}
    (h : PlaneLoaded y b vs c form) (hsign : DecodesSigns sign Q) {x : σ} (hx : Q x (signBits b vs)) {sigStart : Nat}
    (hsig : ⟨sigStart, sigBits b vs⟩ ∈ (sigLayout b vs c form).fields)
    (hfin : (sigLayout b vs c form).fin = alignWordPos (sigStart + (sigBits b vs).length)) :
    decodeLiteral y b (newcomers b vs).length (sigBits b vs).length sigStart sign x (vs.map (decodedAt (b + 1))) =
      .ok (vs.map (decodedAt b), (sigLayout b vs c form).fin) := by
  obtain ⟨x', hwalk, -⟩ := walk_decodes (r := ⟨(sigLayout b vs c form).fin, _⟩)
    (literalStep_decodes hsign y sigStart (sigBits b vs).length b) vs 0 (0, x) h.refinement ⟨h.region hsig, hx⟩
  rw [hfin] at hwalk ⊢
  rw [decodeLiteral_eq, hwalk]
  rfl

/-- R203: the literal Sig form up to its Sign field. -/
theorem decodeLiteralSig_header (h : PlaneLoaded y b vs c form) {selector : Bool}
    (hlen : ⟨c + 1, fieldBits (sigBits b vs).length 15⟩ ∈ (sigLayout b vs c form).fields)
    (hsel : ⟨c + 16, [selector]⟩ ∈ (sigLayout b vs c form).fields) (cs : List Coef) :
    decodeLiteralSig y b c (newcomers b vs).length cs =
      if selector then decodeRlSign y b (c + 16) (newcomers b vs).length (sigBits b vs).length cs
      else decodeLiteralSign y b (c + 16) (newcomers b vs).length (sigBits b vs).length cs := by
  have hnew := (length_newcomers_le b vs).trans h.size
  have hlen : rdVal y.rdHeader (c + 1) 15 = .ok (sigBits b vs).length :=
    rdVal_fieldBits (h.header hlen) (by rw [length_sigBits]; omega)
  obtain ⟨hsel, -⟩ := standsAt_cons.1 (h.header hsel)
  rw [decodeLiteralSig_eq, hlen]
  simp only [Except.bind, hsel, length_sigBits, ne_eq, not_true_eq_false, if_false]

/-- R201: the Sig part of a plane in any form. -/
theorem decodeSig_decodes (h : PlaneLoaded y b vs c form) :
    decodeSig y b c (newcomers b vs).length (vs.map (decodedAt (b + 1))) =
      .ok (vs.map (decodedAt b), (sigLayout b vs c form).fin) := by
  have hsignLen := (length_signBits_le b vs).trans h.size
  rw [decodeSig_eq]
  cases form with
  | rlSig =>
    obtain ⟨hsel, -⟩ := standsAt_cons.1 (h.header (p := c) (l := [true]) (by simp [sigLayout]))
    rw [hsel]
    exact decodeRlSig_decodes h
  | rlSign =>
    obtain ⟨hsel, -⟩ := standsAt_cons.1 (h.header (p := c) (l := [false]) (by simp [sigLayout]))
    have hlen : rdVal y.rdHeader (c + 17) 15 = .ok (signCodeBits b vs).length :=
      rdVal_fieldBits (h.header (by simp [sigLayout])) (Nat.lt_succ_of_le h.fits)
    have hcode : Reads (fun q => y.rd q (c + 32) (c + 32 + (signCodeBits b vs).length)) (c + 32) (signCodeBits b vs) :=
      h.region (by simp [sigLayout])
    rw [hsel]
    refine (decodeLiteralSig_header h (selector := true) (by simp [sigLayout]) (by simp [sigLayout]) _).trans ?_
    rw [if_pos rfl, decodeRlSign_eq, hlen]
    exact decodeLiteral_decodes h (nextSign_decodes _) (signReady_start hcode) (by simp [sigLayout]) rfl
  | literalSign =>
    obtain ⟨hsel, -⟩ := standsAt_cons.1 (h.header (p := c) (l := [false]) (by simp [sigLayout]))
    have hlen : rdVal y.rdHeader (c + 17) 15 = .ok (signBits b vs).length :=
      rdVal_fieldBits (h.header (by simp [sigLayout])) (by omega)
    have hsigns : Reads (fun q => y.rd q (alignWordPos (c + 32)) (alignWordPos (c + 32) + (signBits b vs).length))
        (alignWordPos (c + 32)) (signBits b vs) := h.region (by simp [sigLayout])
    rw [hsel]
    refine (decodeLiteralSig_header h (selector := false) (by simp [sigLayout]) (by simp [sigLayout]) _).trans ?_
    rw [if_neg Bool.false_ne_true, decodeLiteralSign_eq, hlen]
    exact decodeLiteral_decodes h (literalSign_decodes y _ _) hsigns (by simp [sigLayout]) rfl

end

/-! ## A plane whose words are loaded, or not (R207) -/

theorem countInsignificant_decodedAt (b : Nat) (vs : List Word) :
    countInsignificant (vs.map (decodedAt (b + 1))) = (newcomers b vs).length := by
  rw [countInsignificant, List.filter_map, List.length_map]
  rfl

/-- R207: no plane is decoded past the loaded words. -/
theorem decodePlane_ends_loaded {y : Payload} {b c : Nat} {cs : List Coef} {u : List Coef × Nat}
    (h : decodePlane y b c cs = .ok u) : u.2 ≤ y.lim := by
  rw [decodePlane_eq] at h
  cases hsig : decodeSig y b c (countInsignificant cs) cs with
  | error e => rw [hsig] at h; cases h
  | ok w =>
    rw [hsig] at h
    simp only [Except.bind, endCheck] at h
    split at h
    · cases h
    · cases h
      omega

section

variable {bits : BitString} {b : Nat} {vs : List Word} {c lim : Nat} {form : PlaneForm} (hlen : vs.length ≤ 16384)
  (hc : c ≤ 2 ^ 31) (hfit : formFits vs b form) (hbits : carries bits (planeLayout b vs c form))

include hlen hc hfit hbits

theorem decodePlane_loaded (hlim : (planeLayout b vs c form).fin ≤ lim) :
    decodePlane ⟨bits, lim⟩ b c (vs.map (decodedAt (b + 1))) =
      .ok (vs.map (decodedAt b), (planeLayout b vs c form).fin) := by
  obtain ⟨hends, -, hle⟩ := sigLayout_bounds hlen hc hfit
  have href := length_newcomers_add_refinementBits b vs
  have hfin : _ ≤ (planeLayout b vs c form).fin := le_alignWordPos
    (p := (sigLayout b vs c form).fin + (refinementBits b vs).length) (by omega)
  simp only [carries_iff, planeLayout, List.forall_mem_append, List.forall_mem_singleton] at hbits
  obtain ⟨hsig, hrefs⟩ := hbits
  have hdecode := decodeSig_decodes (y := ⟨bits, lim⟩) ⟨hsig, hrefs, hfin.trans hlim, hends, hfit, hlen⟩
  rw [decodePlane_eq, countInsignificant_decodedAt, hdecode, length_map_sub_newcomers]
  exact if_neg (Nat.not_lt.2 hlim)

theorem decodePlane_notLoaded (hlim : lim < (planeLayout b vs c form).fin) :
    ∃ p, decodePlane ⟨bits, lim⟩ b c (vs.map (decodedAt (b + 1))) = .error ⟨.missingData, p⟩ ∧ lim ≤ p ∧
      p ≤ (planeLayout b vs c form).fin := by
  have hfull := decodePlane_loaded hlen hc hfit hbits (le_refl _)
  rcases decodePlane_cut (y' := ⟨bits, lim⟩) (y := ⟨bits, (planeLayout b vs c form).fin⟩) ⟨hlim.le, fun _ _ => rfl⟩ b c
    (vs.map (decodedAt (b + 1))) with heq | ⟨-, hcut⟩
  · have hend : (planeLayout b vs c form).fin ≤ lim := decodePlane_ends_loaded (heq.trans hfull)
    omega
  · exact hcut

end

/-! ## All planes and the values (R200, R208) -/

section

variable {bits : BitString} {vs : List Word} {lim : Nat} {form : Nat → PlaneForm} (hlen : vs.length ≤ 16384)

include hlen

/-- R200: the planes of a layout, if all their words are loaded, and MISSING_DATA if not. -/
theorem decodePlanes_decodes (n : Nat) : ∀ c, c + n * 2 ^ 17 ≤ 2 ^ 31 → c ≤ lim →
    (∀ b, b < n → formFits vs b (form b)) → carries bits (planesLayout form vs n c) →
    ((planesLayout form vs n c).fin ≤ lim →
      decodePlanes ⟨bits, lim⟩ n c (vs.map (decodedAt n)) = .ok (vs.map (decodedAt 0))) ∧
    (lim < (planesLayout form vs n c).fin →
      ∃ p, decodePlanes ⟨bits, lim⟩ n c (vs.map (decodedAt n)) = .error ⟨.missingData, p⟩ ∧ lim ≤ p ∧
        p ≤ (planesLayout form vs n c).fin) := by
  induction n with
  | zero => exact fun c _ hle _ _ => ⟨fun _ => rfl, fun hlt => absurd hlt (Nat.not_lt.2 hle)⟩
  | succ n ih =>
    intro c hc hle hfit hbits
    simp only [carries_iff, planesLayout, List.forall_mem_append] at hbits
    obtain ⟨hplane, hrest⟩ := hbits
    obtain ⟨-, -, hfirst⟩ := planeLayout_bounds hlen (c := c) (by omega) (hfit n (by omega))
    obtain ⟨-, hge, -⟩ := planesLayout_bounds hlen n (planeLayout n vs c (form n)).fin (by omega)
      fun b hb => hfit b (by omega)
    rw [decodePlanes_succ]
    simp only [planesLayout]
    rcases lt_or_ge lim (planeLayout n vs c (form n)).fin with hlt | hloaded
    · obtain ⟨p, hp, hlo, hhi⟩ := decodePlane_notLoaded hlen (by omega) (hfit n (by omega)) hplane hlt
      rw [hp]
      exact ⟨fun h => by omega, fun _ => ⟨p, rfl, hlo, by omega⟩⟩
    · rw [decodePlane_loaded hlen (by omega) (hfit n (by omega)) hplane hloaded]
      exact ih _ (by omega) hloaded (fun b hb => hfit b (by omega)) hrest

end

theorem decodedAt_of_lt {n : Nat} {v : Word} (h : absCoef v < 2 ^ n) : decodedAt n v = ⟨0, false, false⟩ := by
  have hge : ¬ 2 ^ n ≤ absCoef v := Nat.not_le.2 h
  simp [decodedAt, hge, Nat.div_eq_of_lt h]

/-- R208: after plane 0 a value's magnitude and sign are known. -/
theorem decodedAt_zero (v : Word) :
    ((decodedAt 0 v).mag, (decodedAt 0 v).neg) = (absCoef v, decide (v.toInt < 0)) := by
  have hneg : (decide (1 ≤ absCoef v) && decide (s32 v < 0)) = decide (s32 v < 0) := by
    rw [← Bool.decide_and, decide_eq_decide]
    simp only [absCoef, s32]
    omega
  simp only [decodedAt, Nat.pow_zero, Nat.div_one, Nat.mul_one, hneg]

theorem planesOf_mod {planes : Nat} (hge : 1 ≤ planes) (hle : planes ≤ 32) : planesOf (planes % 32) = planes := by
  unfold planesOf
  split
  · simp only [Config.maxPlanes]
    omega
  · omega

/-- R200, R201: the nPlanes field, and what is left to decode. -/
theorem decodeValues_header {bits : BitString} {lim planes bs : Nat} (hge : 1 ≤ planes) (hle : planes ≤ 32)
    (hfield : Holds bits 0 (fieldBits (planes % 32) 5)) (hlim : 5 ≤ lim) : decodeValues ⟨bits, lim⟩ bs =
      (decodePlanes ⟨bits, lim⟩ planes 5 (List.replicate bs ⟨0, false, false⟩)).bind fun cs =>
        .ok (planes % 32, cs) := by
  have hread : rdVal (Payload.rdHeader ⟨bits, lim⟩) 0 5 = .ok (planes % 32) :=
    rdVal_fieldBits (reads_rdHeader hfield (by rw [length_fieldBits, Nat.zero_add]; exact hlim)) (by omega)
  rw [decodeValues_eq, hread]
  simp only [Except.bind, planesOf_mod hge hle]

theorem decodeValues_noWords (bits : BitString) (bs : Nat) :
    decodeValues ⟨bits, 0⟩ bs = .error ⟨.missingData, 0⟩ := rfl

/-- Settles O59: two payloads that agree below the loaded words are cuts of each other, and on a payload that carries
the format every pass of the decoder answers what the format put there. -/
theorem decodeReadsOnlyPayload : Obligations.DecodeReadsOnlyPayload := by
  unfold Obligations.DecodeReadsOnlyPayload
  refine ⟨fun bits bits' wl bs h => decodeValues_congr h bs, ?_⟩
  intro bits wl planes form vs _ hlen hge hle hvs hfit layout hbits
  simp only [carries_iff, layout, payloadLayout, List.forall_mem_cons] at hbits
  obtain ⟨hfield, hplanes⟩ := hbits
  rcases Nat.eq_zero_or_pos wl with rfl | hwl
  · obtain ⟨-, hpos, -⟩ := planesLayout_bounds hlen planes 5 (by omega) hfit
    have hpos : 5 ≤ layout.fin := hpos
    exact ⟨fun h => by omega, fun _ => ⟨0, decodeValues_noWords bits _, by omega, by omega⟩⟩
  · have hstart : List.replicate vs.length ⟨0, false, false⟩ = vs.map (decodedAt planes) := by
      rw [← List.map_const', List.map_congr_left fun v hv => (decodedAt_of_lt (hvs v hv)).symm]
    obtain ⟨hok, hmissing⟩ := decodePlanes_decodes (bits := bits) (lim := 32 * wl) hlen planes 5 (by omega) (by omega)
      hfit hplanes
    rw [decodeValues_header hge hle hfield (by omega), hstart]
    refine ⟨fun h => ⟨vs.map (decodedAt 0), by rw [hok h]; rfl, ?_⟩, fun h => ?_⟩
    · rw [List.map_map]
      exact List.map_congr_left fun v _ => decodedAt_zero v
    · obtain ⟨p, hp, hlo, hhi⟩ := hmissing h
      exact ⟨p, by rw [hp]; rfl, hlo, hhi⟩

end Sys2Proof.Machine
end

section
/-! The bit accessor commands (40_bitstream.md R91 to R107): the bits and bytes that the field primitives touch, the two
checks, and the commands' results. -/

namespace Sys2Proof.Machine

/-! ## Stores of a bit field (R96) -/

/-- The one law of bit-field stores on an array (R96). -/
theorem getBit_setVal (k : Nat) (m : Memory) (p v q : Nat) :
    (m.setVal p v k).getBit q = if p ≤ q ∧ q < p + k then v.testBit (q - p) else m.getBit q := by
  induction k generalizing m p v with
  | zero => rw [Memory.setVal, if_neg (by omega)]
  | succ k ih =>
    rw [Memory.setVal, ih, Memory.getBit_putBit]
    rcases lt_trichotomy q p with h | rfl | h
    · rw [if_neg (by omega), if_neg (by omega), if_neg (by omega)]
    · rw [if_neg (by omega), if_pos rfl, if_pos (by omega), Nat.sub_self]
    · have hpos : q - p = q - (p + 1) + 1 := by omega
      have hrange : p + 1 ≤ q ∧ q < p + 1 + k ↔ p ≤ q ∧ q < p + (k + 1) := by omega
      rw [hpos, Nat.testBit_succ, if_neg (c := q = p) (by omega)]
      simp only [hrange]

/-- A bit-field store changes no byte but those that hold its bits. -/
theorem read_setVal_of_outside (k : Nat) (m : Memory) (p v a : Nat) (h : ¬ (p / 8 ≤ a ∧ a ≤ (p + k - 1) / 8)) :
    (m.setVal p v k).read a = m.read a := by
  induction k generalizing m p v with
  | zero => rfl
  | succ k ih => rw [Memory.setVal, ih _ _ _ (by omega), Memory.read_putBit_of_ne _ _ _ _ (by omega)]

/-! ## Bit fields read as numbers (R95) -/

theorem testBit_getVal (get : Nat → Bool) (k p i : Nat) :
    (getVal get p k).testBit i = (decide (i < k) && get (p + i)) := by
  induction k generalizing p i with
  | zero => simp [getVal]
  | succ k ih =>
    rw [getVal, Nat.add_comm, ← Nat.bit_val]
    cases i with
    | zero => simp
    | succ i =>
      have hpos : p + (i + 1) = p + 1 + i := by omega
      simp only [Nat.testBit_bit_succ, ih, hpos, Nat.add_lt_add_iff_right]

/-- A field is the `k` low bits of a number exactly when it agrees with the number bit by bit. -/
theorem getVal_eq_mod_iff (get : Nat → Bool) (k p v : Nat) :
    getVal get p k = v % 2 ^ k ↔ ∀ i, i < k → get (p + i) = v.testBit i := by
  constructor
  · intro h i hi
    simpa [testBit_getVal, Nat.testBit_mod_two_pow, hi] using congrArg (Nat.testBit · i) h
  · intro h
    apply Nat.eq_of_testBit_eq
    intro i
    rw [testBit_getVal, Nat.testBit_mod_two_pow]
    by_cases hi : i < k
    · rw [h i hi]
    · simp [hi]

/-- A field of at most 32 bits in a register: its own bits, then zeros. -/
theorem getLsbD_reg32_getVal (get : Nat → Bool) (p : Nat) {k : Nat} (hk : k ≤ 32) (i : Nat) :
    (reg32 (getVal get p k)).getLsbD i = (decide (i < k) && get (p + i)) := by
  rw [reg32, BitVec.getLsbD_ofNat, testBit_getVal, ← Bool.and_assoc, ← Bool.decide_and,
    decide_eq_decide.2 (show i < 32 ∧ i < k ↔ i < k by omega)]

/-! ## Runs of equal bits (R97) -/

theorem seek_le (get : Nat → Bool) (b : Bool) (n p : Nat) : seek get b p n ≤ n := by
  induction n generalizing p with
  | zero => rfl
  | succ n ih =>
    rw [seek]
    split
    · exact Nat.succ_le_succ (ih _)
    · exact Nat.zero_le _

/-- The bits that a seek counts are equal. -/
theorem get_of_lt_seek {get : Nat → Bool} {b : Bool} (n : Nat) {p j : Nat} (h : j < seek get b p n) :
    get (p + j) = b := by
  induction n generalizing p j with
  | zero => exact absurd h (Nat.not_lt_zero j)
  | succ n ih =>
    rw [seek] at h
    split at h
    · next hbit =>
      cases j with
      | zero => exact hbit
      | succ j =>
        rw [← Nat.succ_add_eq_add_succ]
        exact ih (Nat.lt_of_succ_lt_succ h)
    · exact absurd h (Nat.not_lt_zero j)

/-- A seek that ends before its cap ends at a bit of the other value. -/
theorem get_at_seek {get : Nat → Bool} {b : Bool} (n : Nat) {p : Nat} (h : seek get b p n < n) :
    get (p + seek get b p n) = !b := by
  induction n generalizing p with
  | zero => exact absurd h (Nat.not_lt_zero _)
  | succ n ih =>
    rw [seek] at h ⊢
    split
    · next hbit =>
      rw [if_pos hbit] at h
      rw [← Nat.succ_add_eq_add_succ]
      exact ih (Nat.lt_of_succ_lt_succ h)
    · next hbit => exact Bool.eq_not.2 hbit

/-! ## Word positions (R15) -/

theorem reg32_numberOfWords (p : Word) : reg32 (numberOfWords p.toNat) = (p + 31#32) >>> 5 := by
  apply BitVec.eq_of_toNat_eq
  simp only [reg32, numberOfWords, BitVec.toNat_ofNat, BitVec.toNat_ushiftRight, BitVec.toNat_add,
    Nat.shiftRight_eq_div_pow]
  omega

theorem reg32_alignWordPos (p : Word) : reg32 (alignWordPos p.toNat) = ((p + 31#32) >>> 5) <<< 5 := by
  apply BitVec.eq_of_toNat_eq
  simp only [reg32, alignWordPos, BitVec.toNat_ofNat, BitVec.toNat_shiftLeft, BitVec.toNat_ushiftRight,
    BitVec.toNat_add, Nat.shiftRight_eq_div_pow, Nat.shiftLeft_eq]
  omega

/-! ## The checks (R77, R91) -/

theorem checkSpan_ok_iff (s : State) (n : Nat) : (checkSpan s n).ok = true ↔ s.arg0.toNat + n ≤ 1048576 :=
  decide_eq_true_iff

theorem checkCount_ok_iff (k : Nat) : (checkCount k).ok = true ↔ 1 ≤ k ∧ k ≤ 32 := by simp [checkCount]

theorem firstFail_span (s : State) (n : Nat) : firstFail [checkSpan s n] =
    if s.arg0.toNat + n ≤ 1048576 then none else some ⟨.badOperand, s.arg0.toNat⟩ :=
  if_congr (checkSpan_ok_iff s n) rfl rfl

/-- K is checked first, then the span (R101 to R103). -/
theorem firstFail_count_span (s : State) (k : Nat) : firstFail [checkCount k, checkSpan s k] =
    if 1 ≤ k ∧ k ≤ 32 then firstFail [checkSpan s k] else some ⟨.badOperand, k⟩ :=
  if_congr (checkCount_ok_iff k) rfl rfl

theorem exec_of_checks {i : Instr} {s : State} (hl : lateError i s = none) (hc : firstFail (checksOf i s) = none) :
    exec i s = .next (complete (effectOf i s)) := by
  rw [exec_eq, commandResult_of_checks hc hl]

theorem exec_of_firstFail {i : Instr} {s : State} {e : Err} (h : firstFail (checksOf i s) = some e) :
    exec i s = .next (raiseErr e s) := by
  rw [exec_eq, commandResult_of_firstFail h]

section

variable {i : Instr} {s : State} {n k : Nat}

theorem exec_of_inside (hi : checksOf i s = [checkSpan s n]) (hl : lateError i s = none)
    (h : s.arg0.toNat + n ≤ 1048576) : exec i s = .next (complete (effectOf i s)) :=
  exec_of_checks hl (by rw [hi, firstFail_span, if_pos h])

theorem exec_of_outside (hi : checksOf i s = [checkSpan s n]) (h : 1048576 < s.arg0.toNat + n) :
    exec i s = .next (raiseErr ⟨.badOperand, s.arg0.toNat⟩ s) :=
  exec_of_firstFail (by rw [hi, firstFail_span, if_neg (by omega)])

theorem exec_field_of_badCount (hi : checksOf i s = [checkCount k, checkSpan s k]) (hk : ¬ (1 ≤ k ∧ k ≤ 32)) :
    exec i s = .next (raiseErr ⟨.badOperand, k⟩ s) :=
  exec_of_firstFail (by rw [hi, firstFail_count_span, if_neg hk])

theorem exec_field_of_outside (hi : checksOf i s = [checkCount k, checkSpan s k]) (hk : 1 ≤ k ∧ k ≤ 32)
    (h : 1048576 < s.arg0.toNat + k) : exec i s = .next (raiseErr ⟨.badOperand, s.arg0.toNat⟩ s) :=
  exec_of_firstFail (by rw [hi, firstFail_count_span, if_pos hk, firstFail_span, if_neg (by omega)])

theorem exec_field_of_inside (hi : checksOf i s = [checkCount k, checkSpan s k]) (hl : lateError i s = none)
    (hk : 1 ≤ k ∧ k ≤ 32) (h : s.arg0.toNat + k ≤ 1048576) : exec i s = .next (complete (effectOf i s)) :=
  exec_of_checks hl (by rw [hi, firstFail_count_span, if_pos hk, firstFail_span, if_pos h])

end

/-! ## One bit (R98 to R100) -/

section

variable (b : Bool) (s : State)

/-- R98, R99: the command that makes a bit `b`. -/
abbrev putBitInstr : Instr := if b then .bsSetbit else .bsClrbit

theorem checksOf_putBitInstr : checksOf (putBitInstr b) s = [checkSpan s 1] := by cases b <;> rfl

theorem lateError_putBitInstr : lateError (putBitInstr b) s = none := by cases b <;> rfl

theorem effectOf_putBitInstr : effectOf (putBitInstr b) s = { s with cb := s.cb.putBit s.arg0.toNat b } := by
  cases b <;> rfl

end

/-- Settles O31: the law of bit stores on CB. -/
theorem bsPutBitResult : Obligations.BsPutBitResult := by
  unfold Obligations.BsPutBitResult
  intro s b
  have hchecks := checksOf_putBitInstr b s
  refine ⟨fun h => ?_, exec_of_outside hchecks⟩
  have hexec := exec_of_inside hchecks (lateError_putBitInstr b s) h
  rw [effectOf_putBitInstr] at hexec
  exact ⟨_, hexec, rfl, fun p => Memory.getBit_putBit s.cb _ p b, fun a => Memory.read_putBit_of_ne s.cb _ a b⟩

theorem reg32_boolToNat (b : Bool) : reg32 b.toNat = if b then 1#32 else 0#32 := by cases b <;> rfl

/-- Settles O32: one bit, one check. -/
theorem bsGetbitResult : Obligations.BsGetbitResult := by
  unfold Obligations.BsGetbitResult
  intro s
  refine ⟨fun h => ?_, exec_of_outside rfl⟩
  rw [exec_of_inside rfl rfl h, effectOf, reg32_boolToNat]
  rfl

/-! ## Bit fields (R101 to R103) -/

/-- Settles O33: the law of bit-field stores on CB, after the checks of K and of the span. -/
theorem bsSetvalResult : Obligations.BsSetvalResult := by
  unfold Obligations.BsSetvalResult
  intro s k
  refine ⟨exec_field_of_badCount rfl, exec_field_of_outside rfl, fun hk h => ?_⟩
  exact ⟨_, exec_field_of_inside rfl rfl hk h, rfl, getBit_setVal k s.cb _ _, read_setVal_of_outside k s.cb _ _⟩

theorem bsGetval_reads {s : State} {k : Nat} (hk : 1 ≤ k ∧ k ≤ 32) (h : s.arg0.toNat + k ≤ 1048576) :
    ∃ x : Word, exec (.bsGetval k) s = .next (complete { s with result0 := x }) ∧
      ∀ i, x.getLsbD i = (decide (i < k) && s.cb.getBit (s.arg0.toNat + i)) :=
  ⟨_, exec_field_of_inside rfl rfl hk h, getLsbD_reg32_getVal s.cb.getBit _ hk.2⟩

theorem bsCmpval_compares {s : State} {k : Nat} (hk : 1 ≤ k ∧ k ≤ 32) (h : s.arg0.toNat + k ≤ 1048576) :
    ∃ x : Word, exec (.bsCmpval k) s = .next (complete { s with result0 := x }) ∧ (x = 0#32 ∨ x = 1#32) ∧
      (x = 1#32 ↔ ∀ i, i < k → s.cb.getBit (s.arg0.toNat + i) = s.arg1.getLsbD i) := by
  refine ⟨_, exec_field_of_inside rfl rfl hk h, ?_, ?_⟩
  · exact (ite_eq_or_eq _ _ _).symm
  · have hone : (1#32 : Word) ≠ 0#32 := by decide
    exact hone.ite_eq_left_iff.trans (getVal_eq_mod_iff s.cb.getBit k s.arg0.toNat s.arg1.toNat)

/-- Settles O34: the checks of both commands, then the field bit by bit. -/
theorem bsGetvalCmpvalResult : Obligations.BsGetvalCmpvalResult := by
  unfold Obligations.BsGetvalCmpvalResult
  intro s k
  exact ⟨fun hk => ⟨exec_field_of_badCount rfl hk, exec_field_of_badCount rfl hk⟩,
    fun hk h => ⟨exec_field_of_outside rfl hk h, exec_field_of_outside rfl hk h⟩,
    fun hk h => ⟨bsGetval_reads hk h, bsCmpval_compares hk h⟩⟩

/-! ## Runs (R104, R105) -/

section

variable (b : Bool) (s : State)

/-- R104, R105: the command that counts bits equal to `b`. -/
abbrev seekInstr : Instr := if b then .bsSeek1 else .bsSeek0

theorem checksOf_seekInstr : checksOf (seekInstr b) s = [checkSpan s s.arg1.toNat] := by cases b <;> rfl

theorem lateError_seekInstr : lateError (seekInstr b) s = none := by cases b <;> rfl

theorem effectOf_seekInstr : effectOf (seekInstr b) s =
    { s with result0 := reg32 (seek s.cb.getBit b s.arg0.toNat s.arg1.toNat) } := by
  cases b <;> rfl

end

/-- Settles O35: what a seek counts, and where it ends. -/
theorem bsSeekResult : Obligations.BsSeekResult := by
  unfold Obligations.BsSeekResult
  intro s b
  have hchecks := checksOf_seekInstr b s
  refine ⟨fun h => ⟨seek s.cb.getBit b s.arg0.toNat s.arg1.toNat, ?_, seek_le _ _ _ _, fun j => get_of_lt_seek _,
    get_at_seek _⟩, exec_of_outside hchecks⟩
  rw [exec_of_inside hchecks (lateError_seekInstr b s) h, effectOf_seekInstr, reg32]

/-! ## Word positions (R106, R107) -/

/-- Settles O36: no check, and the two helpers of R15 as words. -/
theorem bsAlignNwordsResult : Obligations.BsAlignNwordsResult := by
  unfold Obligations.BsAlignNwordsResult
  intro s
  rw [exec_of_checks rfl rfl, exec_of_checks rfl rfl, ← reg32_alignWordPos, ← reg32_numberOfWords]
  exact ⟨rfl, rfl⟩

end Sys2Proof.Machine
end

section
/-! The scan of a band (41_subband.md R130 to R132): which index each entry of the scan list is, and where in the list each
position of the band stands. -/

namespace Sys2Proof.Machine

/-! ## Lists made of parts of one length -/

section

variable {α β : Type} {f : α → List β} {k : Nat} (hf : ∀ a, (f a).length = k)

include hf

theorem length_flatMap_of_length (l : List α) : (l.flatMap f).length = l.length * k := by
  simp [List.length_flatMap, hf]

/-- Entry `j` of part `i`. -/
theorem getElem?_flatMap_of_length (l : List α) (i : Nat) {j : Nat} (hj : j < k) :
    (l.flatMap f)[i * k + j]? = l[i]?.bind fun a => (f a)[j]? := by
  induction l generalizing i with
  | nil => simp
  | cons a l ih =>
    rw [List.flatMap_cons]
    cases i with
    | zero => simp [List.getElem?_append_left, hf, hj]
    | succ i =>
      have hpos : (i + 1) * k + j = k + (i * k + j) := by rw [Nat.succ_mul]; omega
      rw [hpos, List.getElem?_append_right (by rw [hf]; omega), hf, Nat.add_sub_cancel_left, ih]
      rfl

end

/-- Parts of one length, then a rest: entry `j` of part `i`, or of the rest. -/
theorem getElem?_parts_append {β : Type} {f : Nat → List β} {k : Nat} (hf : ∀ i, (f i).length = k) {n i j : Nat}
    (g : List β) (hi : i ≤ n) (hj : i < n → j < k) :
    ((List.range n).flatMap f ++ g)[i * k + j]? = if i < n then (f i)[j]? else g[j]? := by
  have hlen : ((List.range n).flatMap f).length = n * k := by rw [length_flatMap_of_length hf, List.length_range]
  rcases hi.lt_or_eq with hlt | rfl
  · have hend : i * k + j < n * k := by
      calc i * k + j < i * k + k := Nat.add_lt_add_left (hj hlt) _
        _ = (i + 1) * k := (Nat.succ_mul i k).symm
        _ ≤ n * k := Nat.mul_le_mul_right k hlt
    rw [if_pos hlt, List.getElem?_append_left (by rw [hlen]; exact hend), getElem?_flatMap_of_length hf _ _ (hj hlt),
      List.getElem?_range hlt]
    rfl
  · rw [if_neg (Nat.lt_irrefl i), List.getElem?_append_right (by rw [hlen]; exact Nat.le_add_right _ _), hlen,
      Nat.add_sub_cancel_left]

/-! ## Blocks and stripes (R130, R131) -/

theorem length_scanBlock (w r0 c0 nr nc : Nat) : (scanBlock w r0 c0 nr nc).length = nr * nc := by
  rw [scanBlock, length_flatMap_of_length (k := nc) fun y => by simp, List.length_range]

theorem getElem?_scanBlock (w r0 c0 : Nat) {nr nc y x : Nat} (hy : y < nr) (hx : x < nc) :
    (scanBlock w r0 c0 nr nc)[y * nc + x]? = some ((r0 + y) * w + (c0 + x)) := by
  rw [scanBlock, getElem?_flatMap_of_length (fun y => by simp) _ _ hx, List.getElem?_range hy]
  simp [hx]

/-- R130: how many rows (columns) the blocks have that hold row (column) `i` of `n`: eight, or what is left at the end. -/
def blockSpan (n i : Nat) : Nat := if i / 8 < n / 8 then 8 else n % 8

theorem mod_lt_blockSpan {n i : Nat} (h : i < n) : i % 8 < blockSpan n i := by
  unfold blockSpan
  split <;> omega

/-- R131: `nr` rows from row `r0` on, block by block from left to right. `scan_eq_stripes` makes the scan of these. -/
def scanStripe (w r0 nr : Nat) : List Nat :=
  (List.range (w / 8)).flatMap (fun bj => scanBlock w r0 (8 * bj) nr 8) ++ scanBlock w r0 (8 * (w / 8)) nr (w % 8)

theorem scan_eq_stripes (w h : Nat) : scan w h =
    (List.range (h / 8)).flatMap (fun bi => scanStripe w (8 * bi) 8) ++ scanStripe w (8 * (h / 8)) (h % 8) :=
  List.append_assoc _ _ _

theorem length_scanStripe (w r0 nr : Nat) : (scanStripe w r0 nr).length = nr * w := by
  have hsplit := Nat.div_add_mod w 8
  rw [scanStripe, List.length_append, length_flatMap_of_length (k := nr * 8) fun bj => length_scanBlock _ _ _ _ _,
    length_scanBlock, List.length_range]
  calc w / 8 * (nr * 8) + nr * (w % 8) = nr * (8 * (w / 8) + w % 8) := by ring
    _ = nr * w := by rw [hsplit]

theorem length_scan (w h : Nat) : (scan w h).length = w * h := by
  have hsplit := Nat.div_add_mod h 8
  rw [scan_eq_stripes, List.length_append, length_flatMap_of_length (k := 8 * w) fun bi => length_scanStripe _ _ _,
    length_scanStripe, List.length_range]
  calc h / 8 * (8 * w) + h % 8 * w = w * (8 * (h / 8) + h % 8) := by ring
    _ = w * h := by rw [hsplit]

theorem getElem?_scanStripe (r0 : Nat) {w nr y c : Nat} (hy : y < nr) (hc : c < w) :
    (scanStripe w r0 nr)[c / 8 * (nr * 8) + (y * blockSpan w c + c % 8)]? = some ((r0 + y) * w + c) := by
  have hx := mod_lt_blockSpan hc
  have hsplit := Nat.div_add_mod c 8
  have hwithin : c / 8 < w / 8 → y * blockSpan w c + c % 8 < nr * 8 := fun hlt => by
    rw [blockSpan, if_pos hlt]
    omega
  rw [scanStripe, getElem?_parts_append (fun bj => length_scanBlock _ _ _ _ _) _ (Nat.div_le_div_right hc.le) hwithin]
  unfold blockSpan at hx ⊢
  split at hx
  · next hfull => rw [if_pos hfull, if_pos hfull, getElem?_scanBlock _ _ _ hy hx, hsplit]
  · next hlast =>
    have heq : w / 8 = c / 8 := by omega
    rw [if_neg hlast, if_neg hlast, getElem?_scanBlock _ _ _ hy hx, heq, hsplit]

/-! ## Where a position of the band stands in the scan -/

/-- R131: where the scan of a band of `w` columns and `h` rows lists row `r`, column `c`. `getElem?_scan` ties it to
`scan`. -/
def scanPos (w h r c : Nat) : Nat :=
  r / 8 * (8 * w) + (c / 8 * (blockSpan h r * 8) + (r % 8 * blockSpan w c + c % 8))

theorem getElem?_scan {w h r c : Nat} (hr : r < h) (hc : c < w) : (scan w h)[scanPos w h r c]? = some (r * w + c) := by
  have hy := mod_lt_blockSpan hr
  have hsplit := Nat.div_add_mod r 8
  have hentry := getElem?_scanStripe (8 * (r / 8)) hy hc
  rw [hsplit] at hentry
  have hwithin : r / 8 < h / 8 → c / 8 * (blockSpan h r * 8) + (r % 8 * blockSpan w c + c % 8) < 8 * w := fun hlt => by
    rw [blockSpan, if_pos hlt] at hentry ⊢
    rw [← length_scanStripe w (8 * (r / 8)) 8]
    exact (List.getElem?_eq_some_iff.1 hentry).1
  rw [scan_eq_stripes, scanPos,
    getElem?_parts_append (fun bi => length_scanStripe _ _ _) _ (Nat.div_le_div_right hr.le) hwithin]
  split
  · next hfull => rwa [blockSpan, if_pos hfull] at hentry ⊢
  · next hlast =>
    have heq : r / 8 = h / 8 := by omega
    rw [blockSpan, if_neg hlast] at hentry ⊢
    rwa [heq] at hentry

theorem scan_perm (w h : Nat) : (scan w h).Perm (List.range (w * h)) := by
  have hsub : List.range (w * h) ⊆ scan w h := by
    intro i hi
    rw [List.mem_range] at hi
    have hw : 0 < w := Nat.pos_of_mul_pos_right (Nat.zero_lt_of_lt hi)
    have hentry := getElem?_scan (Nat.div_lt_of_lt_mul hi) (Nat.mod_lt i hw)
    rw [Nat.div_add_mod'] at hentry
    exact List.mem_of_getElem? hentry
  refine ((List.nodup_range.subperm hsub).perm_of_length_le ?_).symm
  rw [length_scan, List.length_range]

theorem scanPos_of_narrow {w : Nat} (hw : w ≤ 8) (h : Nat) {r c : Nat} (hc : c < w) : scanPos w h r c = r * w + c := by
  have hcol : c / 8 = 0 := by omega
  have hmod : c % 8 = c := by omega
  have hspan : blockSpan w c = w := by
    unfold blockSpan
    split <;> omega
  rw [scanPos, hcol, hmod, hspan, Nat.zero_mul, Nat.zero_add, ← Nat.add_assoc, ← Nat.mul_assoc, ← Nat.add_mul,
    Nat.div_add_mod']

/-- R132: a band of at most eight columns is scanned in row-major order. -/
theorem scan_of_narrow {w : Nat} (hw : w ≤ 8) (h : Nat) : scan w h = List.range (w * h) := by
  apply List.ext_getElem?
  intro i
  by_cases hi : i < w * h
  · have hpos : 0 < w := Nat.pos_of_mul_pos_right (Nat.zero_lt_of_lt hi)
    have hc := Nat.mod_lt i hpos
    have hentry := getElem?_scan (Nat.div_lt_of_lt_mul hi) hc
    rw [scanPos_of_narrow hw h hc, Nat.div_add_mod'] at hentry
    rw [hentry, List.getElem?_range hi]
  · rw [List.getElem?_eq_none (by rw [length_scan]; omega), List.getElem?_eq_none (by rw [List.length_range]; omega)]

/-- R131: the entry at row `y`, column `x` of the block in block row `bi` and block column `bj`, where the blocks have `nr`
rows and `nc` columns. -/
theorem getElem?_scan_block {w h bi bj y x nr nc : Nat} (hr : 8 * bi + y < h) (hc : 8 * bj + x < w) (hy : y < 8)
    (hx : x < 8) (hnr : (if bi < h / 8 then 8 else h % 8) = nr) (hnc : (if bj < w / 8 then 8 else w % 8) = nc) :
    (scan w h)[bi * (8 * w) + bj * (8 * nr) + (y * nc + x)]? = some ((8 * bi + y) * w + 8 * bj + x) := by
  have hbi : (8 * bi + y) / 8 = bi := by omega
  have hbj : (8 * bj + x) / 8 = bj := by omega
  have hymod : (8 * bi + y) % 8 = y := by omega
  have hxmod : (8 * bj + x) % 8 = x := by omega
  have hentry := getElem?_scan hr hc
  rwa [scanPos, blockSpan, blockSpan, hbi, hbj, hymod, hxmod, hnr, hnc, Nat.mul_comm nr 8, ← Nat.add_assoc,
    ← Nat.add_assoc ((8 * bi + y) * w)] at hentry

/-- Settles O45: the four parts are the blocks with full or partial rows and columns, and every index of the band stands
in the list. -/
theorem scanOrder : Obligations.ScanOrder := by
  unfold Obligations.ScanOrder
  intro w h
  refine ⟨fun bi bj y x hbi hbj hy hx => ?full, fun bi y x hbi hy hx => ?right, fun bj y x hbj hy hx => ?bottom,
    fun y x hy hx => ?corner, length_scan w h, scan_perm w h, fun hw => scan_of_narrow hw h⟩
  case full => exact getElem?_scan_block (by omega) (by omega) hy hx (if_pos hbi) (if_pos hbj)
  case right => exact getElem?_scan_block (by omega) (by omega) hy (by omega) (if_pos hbi) (if_neg (by omega))
  case bottom => exact getElem?_scan_block (by omega) (by omega) (by omega) hx (if_neg (by omega)) (if_pos hbj)
  case corner =>
    exact getElem?_scan_block (by omega) (by omega) (by omega) (by omega) (if_neg (by omega)) (if_neg (by omega))

end Sys2Proof.Machine
end

section
/-! The quantizer and the dequantizer of one coefficient as integers (41_subband.md R121 to R127). -/

namespace Sys2Proof.Machine

theorem toInt_wrap32 {v : Int} (hlo : -2 ^ 31 ≤ v) (hhi : v < 2 ^ 31) : (wrap32 v).toInt = v :=
  BitVec.toInt_ofInt_eq_self (by decide) hlo hhi

/-! ## The quantizer (R122) -/

/-- R122: a rounded magnitude is far from the ends of the 32-bit range. -/
theorem roundShift_absCoef_le (x : Word) (p : Nat) : roundShift (absCoef x) p ≤ 2 ^ 30 := by
  have hm := absCoef_le x
  have hdiv : absCoef x / 2 ^ (p - 1) ≤ absCoef x := Nat.div_le_self _ _
  unfold roundShift
  omega

section

variable (x : Word) (p : Nat)

theorem toInt_roundShift : (wrap32 (roundShift (absCoef x) p)).toInt = roundShift (absCoef x) p := by
  have hr := roundShift_absCoef_le x p
  exact toInt_wrap32 (by omega) (by omega)

theorem toInt_neg_roundShift : (wrap32 (-(roundShift (absCoef x) p : Int))).toInt = -roundShift (absCoef x) p := by
  have hr := roundShift_absCoef_le x p
  exact toInt_wrap32 (by omega) (by omega)

theorem toInt_quantLL : (quantLL x p).toInt =
    if 0 ≤ x.toInt then (roundShift (absCoef x) p : Int) else -roundShift (absCoef x) p := by
  rw [quantLL, apply_ite BitVec.toInt, toInt_roundShift, toInt_neg_roundShift]

theorem toInt_quantHX : (quantHX x p).toInt =
    if (deadZone p : Int) < x.toInt then (roundShift (absCoef x) p : Int)
    else if x.toInt < -deadZone p then -roundShift (absCoef x) p else 0 := by
  rw [quantHX, apply_ite BitVec.toInt, apply_ite BitVec.toInt, toInt_roundShift, toInt_neg_roundShift,
    BitVec.toInt_zero]

theorem quantCoef_ll : quantCoef .ll p x = quantLL x p := if_pos rfl

theorem quantCoef_of_ne {o : Orient} (ho : o ≠ .ll) : quantCoef o p x = quantHX x p := if_neg ho

end

/-- Settles O43: the rounded magnitude never wraps. -/
theorem quantizerFormulas : Obligations.QuantizerFormulas := by
  unfold Obligations.QuantizerFormulas
  intro x p _
  refine ⟨?_, fun o ho => ?_, rfl, rfl⟩
  · rw [quantCoef_ll, toInt_quantLL]
    rfl
  · rw [quantCoef_of_ne x p ho, toInt_quantHX]
    rfl

/-! ## The reconstruction error (R127) -/

/-- Rounding a magnitude to a multiple of the step moves it by at most half the step. -/
theorem abs_roundShift_sub_le {p : Nat} (hp : 1 ≤ p) (m : Nat) :
    |(roundShift m p : Int) * 2 ^ p - m| ≤ 2 ^ (p - 1) := by
  have hstep : (2 : Int) ^ p = 2 * 2 ^ (p - 1) := by rw [← pow_succ', Nat.sub_add_cancel hp]
  have hsplit := Nat.div_add_mod m (2 ^ (p - 1))
  have hmod := Nat.mod_lt m (Nat.two_pow_pos (p - 1))
  have hpos : (0 : Int) < 2 ^ (p - 1) := by positivity
  have hrem : (0 : Int) ≤ m % 2 ^ (p - 1) := Int.emod_nonneg _ hpos.ne'
  rw [hstep, roundShift, abs_le]
  rcases Nat.even_or_odd' (m / 2 ^ (p - 1)) with ⟨r, hq | hq⟩
  · have hround : (m / 2 ^ (p - 1) + 1) / 2 = r := by omega
    rw [hround]
    rw [hq] at hsplit
    zify at hsplit hmod
    constructor <;> linarith
  · have hround : (m / 2 ^ (p - 1) + 1) / 2 = r + 1 := by omega
    rw [hround]
    rw [hq] at hsplit
    zify at hsplit hmod ⊢
    constructor <;> linarith

theorem toInt_dequantCoef {p : Nat} {y : Word} (hlo : -2 ^ 31 ≤ y.toInt * 2 ^ p) (hhi : y.toInt * 2 ^ p < 2 ^ 31) :
    (dequantCoef p y).toInt = y.toInt * 2 ^ p := toInt_wrap32 hlo hhi

/-- R127: dequantizing the rounded magnitude with the coefficient's sign, inside the range where the shift does not
wrap. -/
theorem abs_dequantCoef_sub_le {x y : Word} {p : Nat} (hp : 1 ≤ p)
    (hrange : (x.toInt.natAbs : Int) < 2 ^ 31 - 2 ^ (p - 1))
    (hy : y.toInt = if 0 ≤ x.toInt then (roundShift (absCoef x) p : Int) else -roundShift (absCoef x) p) :
    |(dequantCoef p y).toInt - x.toInt| ≤ 2 ^ (p - 1) := by
  have herr := abs_roundShift_sub_le hp (absCoef x)
  have hx : x.toInt = if 0 ≤ x.toInt then (absCoef x : Int) else -absCoef x := by
    simp only [absCoef, s32]
    omega
  have hmul : |y.toInt * 2 ^ p - x.toInt| ≤ 2 ^ (p - 1) := by
    split at hx
    · next hpos => rwa [hy, if_pos hpos, hx]
    · next hneg => rwa [hy, if_neg hneg, hx, neg_mul, neg_sub_neg, abs_sub_comm]
  rw [abs_le] at hmul
  rwa [toInt_dequantCoef (by omega) (by omega), abs_le]

theorem dequantCoef_zero (p : Nat) : (dequantCoef p 0#32).toInt = 0 := by
  rw [toInt_dequantCoef] <;> simp

/-- Settles O44: a coefficient is rounded to a multiple of the step, or it is inside the dead zone and becomes 0. -/
theorem reconstructionError : Obligations.ReconstructionError := by
  unfold Obligations.ReconstructionError
  intro x p hp _ hrange
  refine ⟨abs_dequantCoef_sub_le hp hrange (by rw [quantCoef_ll, toInt_quantLL]), fun o ho => ?_⟩
  have hy := toInt_quantHX x p
  rw [← quantCoef_of_ne x p ho] at hy
  by_cases hdead : |x.toInt| ≤ deadZone p
  · obtain ⟨hlo, hhi⟩ := abs_le.1 hdead
    rw [if_neg (by omega), if_neg (by omega)] at hy
    have hzero : quantCoef o p x = 0#32 := BitVec.eq_of_toInt_eq hy
    rw [hzero, dequantCoef_zero, zero_sub, abs_neg]
    exact hdead.trans (le_max_left _ _)
  · have hsign : (quantCoef o p x).toInt =
        if 0 ≤ x.toInt then (roundShift (absCoef x) p : Int) else -roundShift (absCoef x) p := by
      rw [hy]
      rw [abs_le] at hdead
      split_ifs <;> omega
    exact (abs_dequantCoef_sub_le hp hrange hsign).trans (le_max_right _ _)

end Sys2Proof.Machine
end

section
/-! The subband commands (41_subband.md R110 to R119, R123, R125): the sizes of the bands, the checks in order, and the
commands' results. -/

namespace Sys2Proof.Machine

/-! ## Sizes of bands (R111, R156) -/

/-- R156: halving upwards `l` times is one division upwards by 2^l. -/
theorem llDim_eq_div (d l : Nat) : llDim d l = (d + 2 ^ l - 1) / 2 ^ l := by
  induction l with
  | zero => simp [llDim]
  | succ l ih =>
    have hpos := Nat.two_pow_pos l
    have hup : (d + 2 ^ l - 1) / 2 ^ l + 1 = (d + 2 ^ (l + 1) - 1) / 2 ^ l := by
      rw [← Nat.add_div_right _ hpos, Nat.pow_succ]
      congr 1
      omega
    rw [llDim, ih, hup, Nat.div_div_eq_div_mul, ← Nat.pow_succ]

/-- Settles O37: R111's definitions, and the division of R156 along each axis. -/
theorem bandGeometry : Obligations.BandGeometry := by
  unfold Obligations.BandGeometry
  intro s
  have hll : ∀ l, s.bw l .ll = llDim s.geomW.toNat l ∧ s.bh l .ll = llDim s.geomH.toNat l :=
    fun l => ⟨bandDim_true _ l, bandDim_true _ l⟩
  refine ⟨rfl, rfl, fun l => ?_, fun l => ?_⟩
  · obtain ⟨hw, hh⟩ := hll l
    rw [hw, hh]
    exact ⟨rfl, rfl, rfl, rfl, rfl, rfl, rfl, rfl⟩
  · rw [← llDim_eq_div, ← llDim_eq_div]
    exact hll l

/-! ## The checks (R110) -/

theorem bandError_of_noGeom {s : State} (h : s.geom = false) (l : Nat) (o : Orient) :
    s.bandError l o = some ⟨.notInitialised, 0⟩ := if_pos h

theorem bandError_of_badLevel {s : State} (hg : s.geom = true) {l : Nat} (h : s.levels < l) (o : Orient) :
    s.bandError l o = some ⟨.badOperand, l⟩ := by
  rw [State.bandError, if_neg (by simp [hg]), if_pos h]

theorem bandError_of_badOrient {s : State} (hg : s.geom = true) {o : Orient} (h : o ≠ .ll) :
    s.bandError 0 o = some ⟨.badOperand, 0⟩ := by
  rw [State.bandError, if_neg (by simp [hg]), if_neg (Nat.not_lt_zero _), if_pos ⟨rfl, h⟩]

/-- Above level 0 every orientation names a band, on level 0 only LL. -/
theorem orient_of_bandError {s : State} {l : Nat} {o : Orient} (h : s.bandError l o = none) : l = 0 → o = .ll := by
  rintro rfl
  by_contra ho
  unfold State.bandError at h
  split_ifs at h with hg hl hll
  exact hll ⟨rfl, ho⟩

/-- R110: the shared checks raise the error of the band named, then the command's own checks follow. -/
theorem firstFail_bandChecks_append (s : State) (l : Nat) (o : Orient) (rest : List Check) :
    firstFail (bandChecks s l o ++ rest) = (s.bandError l o).or (firstFail rest) := by
  have hll : (decide (l ≠ 0) || decide (o = .ll)) = true ↔ ¬ (l = 0 ∧ o ≠ .ll) := by
    rw [Bool.or_eq_true, decide_eq_true_eq, decide_eq_true_eq]
    tauto
  simp only [bandChecks, checkGeom, List.cons_append, List.nil_append, firstFail_cons, State.bandError,
    decide_eq_true_eq, hll]
  by_cases hg : s.geom = true
  · by_cases hl : l ≤ s.levels
    · by_cases ho : l = 0 ∧ o ≠ .ll
      · simp [hg, ho]
      · simp [hg, hl, ho, Nat.not_lt.2 hl]
    · simp [hg, hl, Nat.lt_of_not_le hl]
  · simp [hg]

section

variable {i : Instr} {s : State} {l : Nat} {o : Orient} {rest : List Check} {e : Err}
  (hi : checksOf i s = bandChecks s l o ++ rest)

include hi

theorem exec_of_bandError (he : s.bandError l o = some e) : exec i s = .next (raiseErr e s) :=
  exec_of_firstFail (by rw [hi, firstFail_bandChecks_append, he]; rfl)

theorem exec_of_bandOk_error (hb : s.bandError l o = none) (he : firstFail rest = some e) :
    exec i s = .next (raiseErr e s) :=
  exec_of_firstFail (by rw [hi, firstFail_bandChecks_append, hb, he]; rfl)

theorem exec_of_bandOk (hl : lateError i s = none) (hb : s.bandError l o = none) (hr : firstFail rest = none) :
    exec i s = .next (complete (effectOf i s)) :=
  exec_of_checks hl (by rw [hi, firstFail_bandChecks_append, hb, hr]; rfl)

end

section

variable (s : State) (l : Nat) (o : Orient)

@[simp] theorem checkQ_ok_iff (q : Nat) : (checkQ q).ok = true ↔ q ≤ 31 := decide_eq_true_iff

@[simp] theorem checkQ_err (q : Nat) : (checkQ q).err = ⟨.badOperand, q⟩ := rfl

@[simp] theorem checkAlloc_ok : (checkAlloc s l o).ok = s.alloc l o := rfl

@[simp] theorem checkAlloc_err : (checkAlloc s l o).err = ⟨.notAllocated, l⟩ := rfl

@[simp] theorem checkIndex_ok_iff : (checkIndex s l o).ok = true ↔ s.arg0.toNat < s.bw l o * s.bh l o :=
  decide_eq_true_iff

@[simp] theorem checkIndex_err : (checkIndex s l o).err = ⟨.badOperand, s.arg0.toNat⟩ := rfl

@[simp] theorem checkStart_ok_iff : (checkStart s l o).ok = true ↔ s.arg0.toNat ≤ s.bw l o * s.bh l o :=
  decide_eq_true_iff

@[simp] theorem checkStart_err : (checkStart s l o).err = ⟨.badOperand, s.arg0.toNat⟩ := rfl

@[simp] theorem checkRoomFor_ok_iff : (checkRoomFor s l o).ok = true ↔
    s.alloc l o = true ∨ s.used + s.bw l o * s.bh l o ≤ s.capBand :=
  (Bool.or_eq_true _ _).to_iff.trans (or_congr_right decide_eq_true_iff)

@[simp] theorem checkRoomFor_err : (checkRoomFor s l o).err = ⟨.insufficientMemory, s.bw l o * s.bh l o⟩ := rfl

end

/-- Settles O38: all nine commands begin with the checks of R110. -/
theorem sbBandChecks : Obligations.SbBandChecks := by
  unfold Obligations.SbBandChecks
  intro s l o i hi
  have hchecks : ∃ rest, checksOf i s = bandChecks s l o ++ rest := by
    simp only [List.mem_cons, List.not_mem_nil, or_false] at hi
    rcases hi with rfl | rfl | rfl | rfl | rfl | rfl | rfl | rfl | rfl
    case inr.inl | inr.inr.inr.inr.inr.inr.inr.inr => exact ⟨[], (List.append_nil _).symm⟩
    all_goals exact ⟨_, rfl⟩
  obtain ⟨rest, hchecks⟩ := hchecks
  refine ⟨fun hg => ?_, fun hg hl => ?_, ?_⟩
  · exact exec_of_bandError hchecks (bandError_of_noGeom hg l o)
  · exact exec_of_bandError hchecks (bandError_of_badLevel hg hl o)
  · rintro hg rfl ho
    exact exec_of_bandError hchecks (bandError_of_badOrient hg ho)

/-! ## What storing and freeing leave (R112 to R114) -/

section

variable (l : Nat) (o : Orient) (cs : List Word) (s : State)

theorem alloc_storeBand_self : (storeBand l o cs s).alloc l o = true := by simp [alloc_storeBand]

theorem coefs_storeBand_self : (storeBand l o cs s).coefs l o = cs := by simp [coefs_storeBand]

theorem bandsElsewhere_storeBand : bandsElsewhere l o s (storeBand l o cs s) := fun l' o' h =>
  ⟨by simp [alloc_storeBand, h], by simp [coefs_storeBand, h]⟩

theorem alloc_freeBand_self : (freeBand l o s).alloc l o = false := by simp [alloc_freeBand]

theorem bandsElsewhere_freeBand : bandsElsewhere l o s (freeBand l o s) := fun l' o' h =>
  ⟨by simp [alloc_freeBand, h], by simp [coefs_freeBand, h]⟩

/-- R114: storing an allocated band again leaves `used`. -/
theorem storeBand_of_alloc {s : State} (h : s.alloc l o = true) :
    storeBand l o cs s = { s with bands := (storeBand l o cs s).bands } := by
  rw [storeBand, if_pos h]

end

/-! ## Whole bands (R115, R116) -/

/-- Settles O39: both commands store or free one whole band. -/
theorem sbAllocFreeResult : Obligations.SbAllocFreeResult := by
  unfold Obligations.SbAllocFreeResult
  intro s l o
  have hfree : checksOf (.sbFree l o) s = bandChecks s l o ++ [] := rfl
  refine ⟨fun e he => ⟨exec_of_bandError rfl he, exec_of_bandError hfree he⟩, fun hb hroom => ?_, fun hb ha hroom => ?_,
    fun hb => ?_⟩
  · exact ⟨_, exec_of_bandOk rfl rfl hb (by simp [hroom]), rfl, alloc_storeBand_self l o _ s,
      coefs_storeBand_self l o _ s, rfl, bandsElsewhere_storeBand l o _ s⟩
  · exact exec_of_bandOk_error rfl hb (by simp [ha, hroom])
  · exact ⟨_, exec_of_bandOk hfree rfl hb rfl, rfl, alloc_freeBand_self l o s, rfl, bandsElsewhere_freeBand l o s⟩

/-! ## One coefficient (R117, R118) -/

theorem getD_set (cs : List Word) {k : Nat} (hk : k < cs.length) (v d : Word) (i : Nat) :
    (cs.set k v).getD i d = if i = k then v else cs.getD i d := by
  rw [List.getD_eq_getElem?_getD, List.getElem?_set, List.getD_eq_getElem?_getD]
  by_cases hik : i = k
  · rw [if_pos hik.symm, if_pos hk, if_pos hik]
    rfl
  · rw [if_neg (Ne.symm hik), if_neg hik]

/-- SB_WR and SB_RD make the same checks, in the same order. -/
theorem exec_coefficient_errors {i : Instr} {s : State} {l : Nat} {o : Orient}
    (hi : checksOf i s = bandChecks s l o ++ [checkIndex s l o, checkAlloc s l o]) :
    (s.bandError l o = none → s.bw l o * s.bh l o ≤ s.arg0.toNat →
      exec i s = .next (raiseErr ⟨.badOperand, s.arg0.toNat⟩ s)) ∧
    (s.bandError l o = none → s.arg0.toNat < s.bw l o * s.bh l o → s.alloc l o = false →
      exec i s = .next (raiseErr ⟨.notAllocated, l⟩ s)) :=
  ⟨fun hb h => exec_of_bandOk_error hi hb (by simp [h]), fun hb h ha => exec_of_bandOk_error hi hb (by simp [h, ha])⟩

/-- Settles O40: one list entry is read or replaced. -/
theorem sbWrRdResult : Obligations.SbWrRdResult := by
  unfold Obligations.SbWrRdResult
  intro s l o
  have hwr : checksOf (.sbWr l o) s = bandChecks s l o ++ [checkIndex s l o, checkAlloc s l o] := rfl
  have hrd : checksOf (.sbRd l o) s = bandChecks s l o ++ [checkIndex s l o, checkAlloc s l o] := rfl
  obtain ⟨hwrIndex, hwrAlloc⟩ := exec_coefficient_errors hwr
  obtain ⟨hrdIndex, hrdAlloc⟩ := exec_coefficient_errors hrd
  refine ⟨fun e he => ⟨exec_of_bandError hwr he, exec_of_bandError hrd he⟩,
    fun hb h => ⟨hwrIndex hb h, hrdIndex hb h⟩, fun hb h ha => ⟨hwrAlloc hb h ha, hrdAlloc hb h ha⟩,
    fun hb h ha => exec_of_bandOk hrd rfl hb (by simp [h, ha]), fun hb h ha hlen => ?_⟩
  have hcoefs := coefs_storeBand_self l o ((s.coefs l o).set s.arg0.toNat s.arg1) s
  refine ⟨_, exec_of_bandOk hwr rfl hb (by simp [h, ha]), congrArg complete (storeBand_of_alloc l o _ ha),
    alloc_storeBand_self l o _ s, ?_, fun i => ?_, bandsElsewhere_storeBand l o _ s⟩
  · exact (congrArg List.length hcoefs).trans List.length_set
  · exact (congrArg (List.getD · i 0#32) hcoefs).trans (getD_set _ (by omega) _ _ _)

/-! ## Dimensions (R119) -/

/-- Settles O41: only R110's checks, then three registers. -/
theorem sbInfoResult : Obligations.SbInfoResult := by
  unfold Obligations.SbInfoResult
  intro s l o
  have hchecks : checksOf (.sbInfo l o) s = bandChecks s l o ++ [] := rfl
  refine ⟨fun e => exec_of_bandError hchecks, fun hb => ?_⟩
  rw [exec_of_bandOk hchecks rfl hb rfl, effectOf, reg32_boolToNat]
  rfl

/-! ## Quantization of a band (R123, R125) -/

section

variable (up : Bool) (l : Nat) (o : Orient) (s : State)

/-- R123, R125: the command that quantizes, or dequantizes, a band. -/
abbrev quantInstr : Instr := if up then .sbDequant l o else .sbQuant l o

theorem checksOf_quantInstr :
    checksOf (quantInstr up l o) s = bandChecks s l o ++ [checkQ s.arg0.toNat, checkAlloc s l o] := by
  cases up <;> rfl

theorem lateError_quantInstr : lateError (quantInstr up l o) s = none := by cases up <;> rfl

theorem effectOf_quantInstr : effectOf (quantInstr up l o) s = storeBand l o
    (if effParam s.arg0.toNat l o ≤ 0 then s.coefs l o
      else if up then (s.coefs l o).map (dequantCoef (effParam s.arg0.toNat l o).toNat)
      else (s.coefs l o).map (quantCoef o (effParam s.arg0.toNat l o).toNat)) s := by
  cases up <;> rfl

end

/-- Settles O42: one map over one band. -/
theorem sbQuantDequantResult : Obligations.SbQuantDequantResult := by
  unfold Obligations.SbQuantDequantResult
  intro s l o up i p
  have hp : p = effParam s.arg0.toNat l o := by cases o <;> rfl
  have hchecks := checksOf_quantInstr up l o s
  refine ⟨fun e => exec_of_bandError hchecks, fun hb hq => ?_, fun hb hq ha => ?_, fun hb hq ha => ?_⟩
  · exact exec_of_bandOk_error hchecks hb (by simp [hq])
  · exact exec_of_bandOk_error hchecks hb (by simp [hq, ha])
  · have hexec := exec_of_bandOk hchecks (lateError_quantInstr up l o s) hb (by simp [hq, ha])
    rw [effectOf_quantInstr, ← hp] at hexec
    exact ⟨_, hexec, congrArg complete (storeBand_of_alloc l o _ ha), alloc_storeBand_self l o _ s,
      coefs_storeBand_self l o _ s, bandsElsewhere_storeBand l o _ s⟩

end Sys2Proof.Machine
end

section
/-! Moving coefficients between a band and the macroblock in scan order: SB_EXTRACT and SB_PLACE (41_subband.md R133,
R134). -/

namespace Sys2Proof.Machine

/-! ## Stores of words (R54) -/

theorem read_writeWords_of_outside (m : Memory) {i a : Nat} {ws : List Word}
    (h : ¬ (4 * i ≤ a ∧ a < 4 * (i + ws.length))) : (m.writeWords i ws).read a = m.read a := by
  rw [Memory.writeWords, Memory.read_write, length_flatMap_wordBytes, if_neg (by omega)]

theorem readWord_writeWords (m : Memory) (i : Nat) {ws : List Word} {j : Nat} (hj : j < ws.length) :
    (m.writeWords i ws).readWord (i + j) = ws[j] := by
  have hlane : ∀ k, k < 4 →
      (m.writeWords i ws).read (4 * (i + j) + k) = (m.writeWords (i + j) [ws[j]]).read (4 * (i + j) + k) := by
    intro k hk
    have hpos : 4 * (i + j) + k - 4 * i = j * 4 + k := by omega
    rw [read_writeWord, if_pos (by omega), Nat.add_sub_cancel_left, Memory.writeWords, Memory.read_write,
      length_flatMap_wordBytes, if_pos (by omega), hpos, List.getD_eq_getElem?_getD,
      getElem?_flatMap_of_length wordBytes_length ws j hk, List.getElem?_eq_getElem hj, List.getD_eq_getElem?_getD]
    rfl
  rw [readWord_congr hlane, readWord_writeWord_same]

theorem readWords_writeWords (m : Memory) (i : Nat) (ws : List Word) :
    (m.writeWords i ws).readWords i ws.length = ws := by
  apply List.ext_getElem
  · simp [Memory.readWords]
  · intro j _ hj
    simpa [Memory.readWords] using readWord_writeWords m i hj

/-! ## A span of the scan (R131) -/

/-- The band index at scan index `start + j`. -/
abbrev State.scanAt (s : State) (l : Nat) (o : Orient) (start j : Nat) : Nat :=
  (scan (s.bw l o) (s.bh l o)).getD (start + j) 0

section

variable (s : State) {l : Nat} {o : Orient} {start n : Nat} (hn : start + n ≤ s.bw l o * s.bh l o)

include hn

theorem scanSpan_eq_map : s.scanSpan l o start n = (List.range n).map (s.scanAt l o start) := by
  have hlen := length_scan (s.bw l o) (s.bh l o)
  apply List.ext_getElem
  · rw [State.scanSpan, List.length_take, List.length_drop, hlen, List.length_map, List.length_range]
    omega
  · intro j _ hj
    rw [List.length_map, List.length_range] at hj
    have hin : start + j < (scan (s.bw l o) (s.bh l o)).length := by omega
    simp [State.scanSpan, hin]

theorem nodup_map_scanAt : ((List.range n).map (s.scanAt l o start)).Nodup := by
  rw [← scanSpan_eq_map s hn, State.scanSpan]
  have hscan := (scan_perm (s.bw l o) (s.bh l o)).nodup_iff.2 List.nodup_range
  exact hscan.drop.take

theorem scanAt_lt {j : Nat} (hj : j < n) : s.scanAt l o start j < s.bw l o * s.bh l o := by
  have hlen := length_scan (s.bw l o) (s.bh l o)
  rw [State.scanAt, List.getD_eq_getElem _ _ (by omega), ← List.mem_range]
  exact (scan_perm _ _).mem_iff.1 (List.getElem_mem _)

end

/-! ## SB_EXTRACT (R133) -/

theorem extracted_eq {s : State} {l : Nat} {o : Orient} (h : s.arg0.toNat ≤ s.bw l o * s.bh l o) : s.extracted l o =
    (List.range (s.extractCount l o)).map fun j => s.coef l o (s.scanAt l o s.arg0.toNat j) := by
  have hcount : s.arg0.toNat + s.extractCount l o ≤ s.bw l o * s.bh l o := by
    simp only [State.extractCount, State.u0, u32, State.bandSize]
    omega
  rw [State.extracted, State.u0, scanSpan_eq_map s hcount, List.map_map]
  rfl

/-- Settles O46: the words stored are the span of the scan, and read back. -/
theorem sbExtractResult : Obligations.SbExtractResult := by
  unfold Obligations.SbExtractResult
  intro s l o
  have hchecks : checksOf (.sbExtract l o) s = bandChecks s l o ++ [checkStart s l o, checkAlloc s l o,
    ⟨!(decide (s.arg0.toNat < s.bw l o * s.bh l o) && decide (s.vpos = 16384)), ⟨.mbOverflow, s.vpos⟩⟩] := rfl
  refine ⟨fun e => exec_of_bandError hchecks, fun hb h => ?_, fun hb h ha => ?_, fun hb ha h hfull => ?_,
    fun hb ha h hroom => ?_⟩
  · exact exec_of_bandOk_error hchecks hb (by simp [h])
  · exact exec_of_bandOk_error hchecks hb (by simp [h, ha])
  · exact exec_of_bandOk_error hchecks hb (by simp [h, h.le, ha, hfull])
  · intro n moved
    have hexec := exec_of_bandOk hchecks rfl hb (by
      rcases hroom with heq | hfull
      · simp [heq, ha]
      · simp [h, ha, hfull])
    have hmoved : s.extracted l o = moved := extracted_eq h
    have hlen : moved.length = n := (List.length_map _).trans List.length_range
    refine ⟨_, hexec, rfl, ?_, ?_, fun a ha => ?_⟩
    · rw [← hlen, ← hmoved]
      exact readWords_writeWords s.mbv s.vpos _
    · exact hmoved ▸ isRunningMax_maxAbsAfter (s.extracted l o) s.maxAbs
    · exact read_writeWords_of_outside s.mbv (by rwa [hmoved, hlen])

/-! ## SB_PLACE (R134) -/

section

variable (pos : Nat → Nat) (val : Nat → Word)

/-- Storing values one after the other at positions of a list. -/
def setEach (js : List Nat) (cs : List Word) : List Word := js.foldl (fun cs j => cs.set (pos j) (val j)) cs

theorem length_setEach (js : List Nat) (cs : List Word) : (setEach pos val js cs).length = cs.length := by
  induction js generalizing cs with
  | nil => rfl
  | cons j js ih => exact (ih _).trans List.length_set

theorem getD_setEach_of_ne {i : Nat} (d : Word) {js : List Nat} (h : ∀ j ∈ js, pos j ≠ i) (cs : List Word) :
    (setEach pos val js cs).getD i d = cs.getD i d := by
  induction js generalizing cs with
  | nil => rfl
  | cons j js ih =>
    rw [List.forall_mem_cons] at h
    have hset : (cs.set (pos j) (val j)).getD i d = cs.getD i d := by
      rw [List.getD_eq_getElem?_getD, List.getElem?_set_ne h.1, List.getD_eq_getElem?_getD]
    exact (ih h.2 _).trans hset

theorem getD_setEach_of_mem {j : Nat} (d : Word) {js : List Nat} (hnodup : (js.map pos).Nodup) (hj : j ∈ js)
    {cs : List Word} (hpos : pos j < cs.length) : (setEach pos val js cs).getD (pos j) d = val j := by
  induction js generalizing cs with
  | nil => cases hj
  | cons k js ih =>
    obtain ⟨hk, hnodup⟩ := List.nodup_cons.1 hnodup
    rcases List.mem_cons.1 hj with rfl | hj
    · have hrest : ∀ j' ∈ js, pos j' ≠ pos j := fun j' hj' heq => hk (heq ▸ List.mem_map_of_mem hj')
      refine (getD_setEach_of_ne pos val d hrest _).trans ?_
      rw [getD_set cs hpos, if_pos rfl]
    · exact ih hnodup hj (by rwa [List.length_set])

end

section

variable {s : State} {l : Nat} {o : Orient}

theorem placed_eq (h : s.arg0.toNat ≤ s.bw l o * s.bh l o) : s.placed l o =
    setEach (s.scanAt l o s.arg0.toNat) (fun j => dequantCoef (s.placeParam l o) (s.mbv.readWord (s.vpos + j)))
      (List.range (s.placeCount l o)) (s.placeBase l o) := by
  have hcount : s.arg0.toNat + s.placeCount l o ≤ s.bw l o * s.bh l o := by
    simp only [State.placeCount, State.u0, u32, State.bandSize]
    omega
  rw [State.placed, State.u0, scanSpan_eq_map s hcount, Memory.readWords, List.zip_map', List.foldl_map]
  rfl

theorem length_placeBase (hlen : s.alloc l o = true → (s.coefs l o).length = s.bw l o * s.bh l o) :
    (s.placeBase l o).length = s.bw l o * s.bh l o := by
  unfold State.placeBase
  split
  · next ha => exact hlen ha
  · exact List.length_replicate

theorem getD_placeBase (i : Nat) : (s.placeBase l o).getD i 0#32 = if s.alloc l o then s.coef l o i else 0#32 := by
  unfold State.placeBase
  split
  · rfl
  · rw [List.getD_eq_getElem?_getD, List.getElem?_replicate]
    split <;> rfl

/-- R134: the clamped parameter as a difference of numbers; only level 0 could have a negative offset, and it has LL
alone. -/
theorem placeParam_eq (s : State) (l : Nat) (o : Orient) : s.bandError l o = none → s.placeParam l o =
    s.arg1.toNat - (match o with | .ll => l + 1 | .hl => l | .lh => l | .hh => l - 1) := by
  intro hb
  have ho := orient_of_bandError hb
  unfold State.placeParam effParam quantOffset State.u1 u32
  cases o with
  | ll | hl | lh => simp only []; omega
  | hh =>
    have hl : l ≠ 0 := fun h => nomatch ho h
    simp only []
    omega

end

/-- Settles O47: the values stored one after the other, at distinct positions of the band. -/
theorem sbPlaceResult : Obligations.SbPlaceResult := by
  unfold Obligations.SbPlaceResult
  intro s l o room
  have hchecks : checksOf (.sbPlace l o) s = bandChecks s l o ++ [checkQ s.arg1.toNat, checkStart s l o,
    checkRoomFor s l o, ⟨!(decide (s.arg0.toNat < s.bw l o * s.bh l o) && decide (s.vlim ≤ s.vpos)),
      ⟨.mbUnderflow, s.vpos⟩⟩] := rfl
  have hroomFor : (checkRoomFor s l o).ok = true ↔ room := checkRoomFor_ok_iff s l o
  refine ⟨fun e => exec_of_bandError hchecks, fun hb hq => ?_, fun hb hq h => ?_, fun hb hq h hroom => ?_,
    fun hb hq h hroom hempty => ?_, fun hb hq h hroom hmore hlen => ?_⟩
  · exact exec_of_bandOk_error hchecks hb (by simp [hq])
  · exact exec_of_bandOk_error hchecks hb (by simp [hq, h])
  · exact exec_of_bandOk_error hchecks hb (by simp [-checkRoomFor_ok_iff, hroomFor, hq, h, hroom])
  · exact exec_of_bandOk_error hchecks hb (by simp [-checkRoomFor_ok_iff, hroomFor, hq, h, h.le, hroom, hempty])
  · intro n at' p
    have hexec := exec_of_bandOk hchecks rfl hb (by
      rcases hmore with heq | hmore
      · simp [-checkRoomFor_ok_iff, hroomFor, hq, heq, hroom]
      · simp [-checkRoomFor_ok_iff, hroomFor, hq, h, hroom, hmore])
    have hcount : s.arg0.toNat + n ≤ s.bw l o * s.bh l o := by omega
    have hbase := length_placeBase hlen
    have hp : p = s.placeParam l o := (placeParam_eq s l o hb).symm
    have hcoefs : (placeBand l o s).coefs l o = setEach at'
        (fun j => dequantCoef p (s.mbv.readWord (s.vpos + j))) (List.range n) (s.placeBase l o) := by
      rw [hp]
      exact (coefs_storeBand_self l o _ s).trans (placed_eq h)
    have hcoef : ∀ i, (placeBand l o s).coef l o i = (setEach at'
        (fun j => dequantCoef p (s.mbv.readWord (s.vpos + j))) (List.range n) (s.placeBase l o)).getD i 0#32 :=
      fun i => congrArg (List.getD · i 0#32) hcoefs
    refine ⟨_, hexec, rfl, alloc_storeBand_self l o _ s, ?_, rfl, fun j hj => ?_, fun i hi => ?_,
      bandsElsewhere_storeBand l o _ s⟩
    · exact (congrArg List.length hcoefs).trans ((length_setEach _ _ _ _).trans hbase)
    · refine (hcoef (at' j)).trans ?_
      rw [getD_setEach_of_mem at' _ _ (nodup_map_scanAt s hcount) (List.mem_range.2 hj)]
      · rfl
      · rw [hbase]
        exact scanAt_lt s hcount hj
    · refine (hcoef i).trans ?_
      rw [getD_setEach_of_ne at' _ _ fun j hj => hi j (List.mem_range.1 hj), getD_placeBase]

end Sys2Proof.Machine
end

section
/-! The one-dimensional lifting filter (42_wavelet.md R142 to R145): F1D sample by sample, and I1D as its inverse. -/

namespace Sys2Proof.Machine

/-! ## One lifting step and its inverse (R142) -/

/-- R142: a stored sum wraps, and subtracting the same number again gives the sample back. -/
theorem wrap32_sub_of_add (w : Word) (a : Int) : wrap32 (s32 (wrap32 (s32 w + a)) - a) = w := by
  apply BitVec.eq_of_toInt_eq
  simp only [wrap32, s32, BitVec.toInt_ofInt, Int.bmod_sub_bmod, Int.add_sub_cancel, BitVec.toInt_bmod_cancel]

/-- R142: a stored difference wraps, and adding the same number again gives the sample back. -/
theorem wrap32_add_of_sub (w : Word) (a : Int) : wrap32 (s32 (wrap32 (s32 w - a)) + a) = w := by
  simpa only [Int.sub_neg, ← Int.sub_eq_add_neg] using wrap32_sub_of_add w (-a)

@[simp] theorem unliftHigh_liftHigh (e o e' : Word) : unliftHigh e (liftHigh e o e') e' = o := wrap32_add_of_sub o _

@[simp] theorem unliftLow_liftLow (h e h' : Word) : unliftLow h (liftLow h e h') h' = e := wrap32_sub_of_add e _

@[simp] theorem unliftLowEdge_liftLowEdge (e h : Word) : unliftLowEdge (liftLowEdge e h) h = e := wrap32_sub_of_add e _

@[simp] theorem unliftHighEdge_liftHighEdge (e o : Word) : unliftHighEdge e (liftHighEdge e o) = o :=
  wrap32_add_of_sub o _

/-! ## Samples by position (R143) -/

/-- R143: the high sample `j` of a sequence, from the even samples beside position `2 * j + 1`. -/
def highSample (x : List Word) (j : Nat) : Word :=
  if 2 * j + 2 < x.length then liftHigh (x.getD (2 * j) 0#32) (x.getD (2 * j + 1) 0#32) (x.getD (2 * j + 2) 0#32)
  else liftHighEdge (x.getD (2 * j) 0#32) (x.getD (2 * j + 1) 0#32)

/-- R143: the low sample `j` of a sequence, after the high sample `h`; without a high sample behind it, a border. -/
def lowSample (h : Word) (x : List Word) (j : Nat) : Word :=
  if 2 * j + 1 < x.length then liftLow h (x.getD (2 * j) 0#32) (highSample x j) else liftLowEdge (x.getD (2 * j) 0#32) h

theorem highSample_cons_cons (a b : Word) (x : List Word) (j : Nat) :
    highSample (a :: b :: x) (j + 1) = highSample x j := by
  exact if_congr (by simp only [List.length_cons]; omega) rfl rfl

theorem lowSample_cons_cons (h a b : Word) (x : List Word) (j : Nat) :
    lowSample h (a :: b :: x) (j + 1) = lowSample h x j := by
  rw [lowSample, highSample_cons_cons]
  exact if_congr (by simp only [List.length_cons]; omega) rfl rfl

theorem forwardRest_length (h : Word) (x : List Word) : (forwardRest h x).length = x.length := by
  induction h, x using forwardRest.induct with
  | case1 h => rfl
  | case2 h e => rfl
  | case3 h e o => rfl
  | case4 h e o e' t ih => simp only [forwardRest, List.length_cons, ih]

theorem getD_forwardRest_high (h : Word) (x : List Word) (j : Nat) (hj : 2 * j + 1 < x.length) :
    (forwardRest h x).getD (2 * j + 1) 0#32 = highSample x j := by
  induction h, x using forwardRest.induct generalizing j with
  | case1 h => simp at hj
  | case2 h e => simp at hj
  | case3 h e o =>
    obtain rfl : j = 0 := by simp at hj; omega
    rfl
  | case4 h e o e' t ih =>
    cases j with
    | zero => simp [forwardRest, highSample]
    | succ j =>
      rw [highSample_cons_cons, ← ih j (by simpa [Nat.mul_succ] using hj)]
      rfl

theorem getD_forwardRest_zero (h e : Word) (t : List Word) :
    (forwardRest h (e :: t)).getD 0 0#32 = lowSample h (e :: t) 0 := by
  match t with
  | [] => rfl
  | [o] => rfl
  | o :: e' :: t => simp [forwardRest, lowSample, highSample]

theorem getD_forwardRest_low (h : Word) (x : List Word) (j : Nat) (hj : 2 * j + 2 < x.length) :
    (forwardRest h x).getD (2 * j + 2) 0#32 = lowSample (highSample x j) x (j + 1) := by
  induction h, x using forwardRest.induct generalizing j with
  | case1 h => simp at hj
  | case2 h e => simp at hj
  | case3 h e o => simp at hj
  | case4 h e o e' t ih =>
    rw [lowSample_cons_cons]
    cases j with
    | zero =>
      have hhigh : highSample (e :: o :: e' :: t) 0 = liftHigh e o e' := by simp [highSample]
      rw [hhigh, ← getD_forwardRest_zero]
      rfl
    | succ j =>
      rw [highSample_cons_cons, ← ih j (by simpa [Nat.mul_succ] using hj)]
      rfl

/-! ## F1D (R143) -/

theorem f1d_of_short {x : List Word} (h : x.length < 5) : f1d x = x := if_pos h

theorem f1d_cons_cons_cons {e o e' : Word} {t : List Word} (h : ¬ (e :: o :: e' :: t).length < Config.filterSize) :
    f1d (e :: o :: e' :: t) =
      liftLowEdge e (liftHigh e o e') :: liftHigh e o e' :: forwardRest (liftHigh e o e') (e' :: t) := if_neg h

/-- A filtered sequence starts at the left border; the rest is filtered as it would be after any sample `h`. -/
theorem f1d_eq_cons_tail (h : Word) {x : List Word} (hx : 5 ≤ x.length) :
    f1d x = liftLowEdge (x.getD 0 0#32) (highSample x 0) :: (forwardRest h x).tail := by
  match x, hx with
  | e :: o :: e' :: t, hx =>
    have hhigh : highSample (e :: o :: e' :: t) 0 = liftHigh e o e' := by simp [highSample]
    rw [f1d_cons_cons_cons (Nat.not_lt.2 hx), hhigh]
    rfl

theorem f1d_length (x : List Word) : (f1d x).length = x.length := by
  by_cases hx : x.length < 5
  · rw [f1d_of_short hx]
  · rw [f1d_eq_cons_tail 0#32 (by omega), List.length_cons, List.length_tail, forwardRest_length]
    omega

section

variable {x : List Word} (hx : 5 ≤ x.length)

include hx

theorem getD_f1d_zero : (f1d x).getD 0 0#32 = liftLowEdge (x.getD 0 0#32) (highSample x 0) := by
  rw [f1d_eq_cons_tail 0#32 hx]
  rfl

theorem getD_f1d_succ (i : Nat) : (f1d x).getD (i + 1) 0#32 = (forwardRest 0#32 x).getD (i + 1) 0#32 := by
  rw [f1d_eq_cons_tail 0#32 hx]
  simp [List.getD_eq_getElem?_getD]

theorem getD_f1d_high {j : Nat} (hj : 2 * j + 1 < x.length) : (f1d x).getD (2 * j + 1) 0#32 = highSample x j := by
  rw [getD_f1d_succ hx, getD_forwardRest_high _ _ _ hj]

theorem getD_f1d_low {j : Nat} (hj : 2 * j + 2 < x.length) :
    (f1d x).getD (2 * j + 2) 0#32 = lowSample ((f1d x).getD (2 * j + 1) 0#32) x (j + 1) := by
  rw [getD_f1d_succ hx, getD_f1d_high hx (by omega), getD_forwardRest_low _ _ _ hj]

end

/-- Settles O49: F1D by position, where the last sample of either parity is a border. -/
theorem liftingSteps : Obligations.LiftingSteps := by
  unfold Obligations.LiftingSteps
  intro x n old new
  refine ⟨f1d_length x, f1d_of_short, fun hx => ?_⟩
  refine ⟨fun j hj => ?_, fun heven => ?_, ?_, fun j hpos hj => ?_, fun hodd => ?_⟩
  · rw [getD_f1d_high hx (by omega), highSample, if_pos hj]
    rfl
  · obtain ⟨j, hj⟩ : ∃ j, n = 2 * j + 2 := ⟨n / 2 - 1, by omega⟩
    have hlast : ¬ 2 * j + 2 < x.length := by omega
    rw [hj, Nat.add_sub_cancel, show 2 * j + 2 - 1 = 2 * j + 1 from rfl, getD_f1d_high hx (by omega), highSample,
      if_neg hlast]
    rfl
  · have hnew : new 1 = s32 (highSample x 0) := congrArg s32 (getD_f1d_high (j := 0) hx (by omega))
    rw [getD_f1d_zero hx, hnew]
    rfl
  · obtain ⟨j, rfl⟩ : ∃ i, j = i + 1 := ⟨j - 1, by omega⟩
    have hnext : 2 * (j + 1) + 1 < x.length := hj
    have hnew : new (2 * (j + 1) + 1) = s32 (highSample x (j + 1)) := congrArg s32 (getD_f1d_high hx hnext)
    rw [hnew, show 2 * (j + 1) = 2 * j + 2 from rfl, getD_f1d_low hx (by omega), lowSample, if_pos hnext]
    rfl
  · obtain ⟨j, hj⟩ : ∃ j, n = 2 * j + 3 := ⟨n / 2 - 1, by omega⟩
    have hlast : ¬ 2 * (j + 1) + 1 < x.length := by omega
    rw [hj, show 2 * j + 3 - 1 = 2 * j + 2 from rfl, show 2 * j + 3 - 2 = 2 * j + 1 from rfl,
      getD_f1d_low hx (by omega), lowSample, if_neg hlast]
    rfl

/-! ## I1D undoes F1D (R145, R154) -/

theorem inverseRest_forwardRest : ∀ (e o e' : Word) (t : List Word),
    inverseRest e (liftHigh e o e' :: forwardRest (liftHigh e o e') (e' :: t)) = o :: e' :: t
  | e, o, e', [] => by simp [forwardRest, inverseRest]
  | e, o, e', [o'] => by simp [forwardRest, inverseRest]
  | e, o, e', o' :: e'' :: t => by simp [forwardRest, inverseRest, inverseRest_forwardRest e' o' e'' t]

theorem i1d_f1d (x : List Word) : i1d (f1d x) = x := by
  by_cases hx : x.length < 5
  · rw [f1d_of_short hx]
    exact if_pos hx
  · rcases x with - | ⟨e, - | ⟨o, - | ⟨e', t⟩⟩⟩
    case cons.cons.cons =>
      have hlen : ¬ (f1d (e :: o :: e' :: t)).length < Config.filterSize := by rwa [f1d_length]
      rw [f1d_cons_cons_cons hx] at hlen ⊢
      rw [i1d, if_neg hlen]
      simp only [unliftLowEdge_liftLowEdge, inverseRest_forwardRest]
    all_goals simp at hx

end Sys2Proof.Machine
end

section
/-! The two-dimensional transform (42_wavelet.md R146, R149, R154): FWD2 entry by entry, and INV2 as its inverse. -/

namespace Sys2Proof.Machine

/-! ## Even and odd positions (R146) -/

theorem getElem?_evens {α : Type} (l : List α) (i : Nat) : (evens l)[i]? = l[2 * i]? := by
  induction l using evens.induct generalizing i with
  | case1 => rfl
  | case2 a => cases i <;> rfl
  | case3 a b t ih =>
    cases i with
    | zero => rfl
    | succ i => exact ih i

theorem getElem?_odds {α : Type} (l : List α) (i : Nat) : (odds l)[i]? = l[2 * i + 1]? := by
  induction l using odds.induct generalizing i with
  | case1 => rfl
  | case2 a => rfl
  | case3 a b t ih =>
    cases i with
    | zero => rfl
    | succ i => exact ih i

theorem getElem?_map_range {α : Type} (n : Nat) (f : Nat → α) (i : Nat) :
    ((List.range n).map f)[i]? = if i < n then some (f i) else none := by
  split
  · next h => simp [h]
  · next h => simp [Nat.not_lt.1 h]

theorem evens_map_range {α : Type} (n : Nat) (f : Nat → α) :
    evens ((List.range n).map f) = (List.range ((n + 1) / 2)).map fun i => f (2 * i) := by
  apply List.ext_getElem?
  intro i
  rw [getElem?_evens, getElem?_map_range, getElem?_map_range]
  exact if_congr (by omega) rfl rfl

theorem odds_map_range {α : Type} (n : Nat) (f : Nat → α) :
    odds ((List.range n).map f) = (List.range (n / 2)).map fun i => f (2 * i + 1) := by
  apply List.ext_getElem?
  intro i
  rw [getElem?_odds, getElem?_map_range, getElem?_map_range]
  exact if_congr (by omega) rfl rfl

theorem interleave_evens_odds {α : Type} (l : List α) : interleave (evens l) (odds l) = l := by
  induction l using evens.induct with
  | case1 => rfl
  | case2 a => rfl
  | case3 a b t ih => simp only [evens, odds, interleave, ih]

/-! ## Arrays as tables of entries (R113) -/

/-- The rows of an array of `h` rows and `w` columns, given by its entries. -/
def table (h w : Nat) (f : Nat → Nat → Word) : List (List Word) :=
  (List.range h).map fun r => (List.range w).map (f r)

theorem table_succ (h w : Nat) (f : Nat → Nat → Word) :
    table (h + 1) w f = (List.range w).map (f 0) :: table h w fun r => f (r + 1) := by
  rw [table, List.range_succ_eq_map, List.map_cons, List.map_map]
  rfl

theorem map_range_getD (l : List Word) : (List.range l.length).map (fun i => l.getD i 0#32) = l := by
  apply List.ext_getElem
  · simp
  · intro i _ hi
    simp [hi]

/-- An array is the table of its entries. -/
theorem eq_table {w h : Nat} {rows : List (List Word)} (hh : rows.length = h) (hr : ∀ r ∈ rows, r.length = w) :
    rows = table h w fun r c => (rows.getD r []).getD c 0#32 := by
  apply List.ext_getElem
  · simp [table, hh]
  · intro r hlt _
    simp only [table, List.getElem_map, List.getElem_range, List.getD_eq_getElem _ _ hlt]
    rw [← hr _ (List.getElem_mem hlt), map_range_getD]

/-- A filter that keeps the length, on every row of a table. -/
theorem map_table {filter : List Word → List Word} (hlen : ∀ l, (filter l).length = l.length) (h w : Nat)
    (f : Nat → Nat → Word) : (table h w f).map filter =
      table h w fun r c => (filter ((List.range w).map (f r))).getD c 0#32 := by
  rw [table, List.map_map]
  refine List.map_congr_left fun r _ => ?_
  have hrow := map_range_getD (filter ((List.range w).map (f r)))
  rw [hlen, List.length_map, List.length_range] at hrow
  exact hrow.symm

theorem columnsOf_eq_map_range (w : Nat) (rows : List (List Word)) :
    columnsOf w rows = (List.range w).map fun c => rows.map fun r => r.getD c 0#32 := by
  induction w generalizing rows with
  | zero => rfl
  | succ w ih =>
    rw [columnsOf, ih, List.range_succ_eq_map, List.map_cons, List.map_map]
    simp [List.getD_eq_getElem?_getD, Function.comp_def, List.headD_eq_head?_getD, List.head?_eq_getElem?]

theorem columnsOf_table (h w : Nat) (f : Nat → Nat → Word) :
    columnsOf w (table h w f) = table w h fun c r => f r c := by
  rw [columnsOf_eq_map_range, table, table]
  refine List.map_congr_left fun c hc => ?_
  rw [List.map_map]
  refine List.map_congr_left fun r _ => ?_
  simp [List.mem_range.1 hc]

/-- The columns of the columns are the rows. -/
theorem columnsOf_columnsOf {w h : Nat} {rows : List (List Word)} (hh : rows.length = h)
    (hr : ∀ r ∈ rows, r.length = w) : columnsOf h (columnsOf w rows) = rows := by
  rw [eq_table hh hr, columnsOf_table, columnsOf_table]

/-! ## Row-major arrays (R113) -/

theorem rowsOf_length (w h : Nat) (x : List Word) : (rowsOf w h x).length = h := by
  induction h generalizing x with
  | zero => rfl
  | succ h ih => rw [rowsOf, List.length_cons, ih]

theorem rowsOf_flatten {w h : Nat} {rows : List (List Word)} (hh : rows.length = h)
    (hr : ∀ r ∈ rows, r.length = w) : rowsOf w h rows.flatten = rows := by
  subst hh
  induction rows with
  | nil => rfl
  | cons r rows ih =>
    obtain ⟨hlen, hr⟩ := List.forall_mem_cons.1 hr
    rw [List.length_cons, rowsOf, List.flatten_cons, List.take_left' hlen, List.drop_left' hlen, ih hr]

theorem flatten_rowsOf {w h : Nat} {x : List Word} (hx : x.length = w * h) : (rowsOf w h x).flatten = x := by
  induction h generalizing x with
  | zero => exact (List.length_eq_zero_iff.1 hx).symm
  | succ h ih =>
    have hrest : (x.drop w).length = w * h := by rw [List.length_drop, hx, Nat.mul_succ, Nat.add_sub_cancel]
    rw [rowsOf, List.flatten_cons, ih hrest, List.take_append_drop]

theorem length_of_mem_rowsOf {w h : Nat} {x : List Word} (hx : x.length = w * h) :
    ∀ r ∈ rowsOf w h x, r.length = w := by
  induction h generalizing x with
  | zero => exact nofun
  | succ h ih =>
    rw [Nat.mul_succ] at hx
    refine List.forall_mem_cons.2 ⟨?_, ih ?_⟩
    · rw [List.length_take, hx]
      omega
    · rw [List.length_drop, hx, Nat.add_sub_cancel]

theorem rowsOf_eq_table {w h : Nat} {x : List Word} (hx : x.length = w * h) :
    rowsOf w h x = table h w fun r c => x.getD (r * w + c) 0#32 := by
  induction h generalizing x with
  | zero => rfl
  | succ h ih =>
    rw [Nat.mul_succ] at hx
    have hrest : (x.drop w).length = w * h := by rw [List.length_drop, hx, Nat.add_sub_cancel]
    have hfirst : x.take w = (List.range w).map fun c => x.getD (0 * w + c) 0#32 := by
      apply List.ext_getElem
      · rw [List.length_take, List.length_map, List.length_range]
        omega
      · intro c hc _
        rw [List.length_take] at hc
        simp [show c < x.length by omega]
    have hpos : ∀ r c, w + (r * w + c) = (r + 1) * w + c := fun r c => by rw [Nat.succ_mul]; omega
    rw [rowsOf, ih hrest, hfirst, table_succ]
    simp only [List.getD_eq_getElem?_getD, List.getElem?_drop, hpos]

/-! ## FWD2 (R146, R149) -/

theorem deinterleave_table (w h : Nat) (y : Nat → Nat → Word) : deinterleave (table h w y) =
    ⟨(List.range ((h + 1) / 2)).flatMap fun r => (List.range ((w + 1) / 2)).map fun c => y (2 * r) (2 * c),
      (List.range ((h + 1) / 2)).flatMap fun r => (List.range (w / 2)).map fun c => y (2 * r) (2 * c + 1),
      (List.range (h / 2)).flatMap fun r => (List.range ((w + 1) / 2)).map fun c => y (2 * r + 1) (2 * c),
      (List.range (h / 2)).flatMap fun r => (List.range (w / 2)).map fun c => y (2 * r + 1) (2 * c + 1)⟩ := by
  simp only [deinterleave, table, evens_map_range, odds_map_range, List.map_map, Function.comp_def, List.flatMap_def]

/-- Settles O50: the table of the entries goes through the filter along each axis, then through the split by parity. -/
theorem forwardTransformEntries : Obligations.ForwardTransformEntries := by
  unfold Obligations.ForwardTransformEntries
  intro w h x hx rowDone y
  have hfwd : fwd2 w h x = deinterleave (table h w y) := by
    rw [fwd2, rowsOf_eq_table hx, map_table f1d_length, columnsOf_table, map_table f1d_length, columnsOf_table]
  rw [hfwd, deinterleave_table]
  exact ⟨rfl, rfl, rfl, rfl⟩

/-! ## INV2 undoes FWD2 (R154) -/

/-- R146: rows put back together from their even and their odd entries. -/
theorem zipWith_interleave_rowsOf {w h : Nat} {rows : List (List Word)} (hh : rows.length = h)
    (hr : ∀ r ∈ rows, r.length = w) : List.zipWith interleave (rowsOf ((w + 1) / 2) h (rows.map evens).flatten)
      (rowsOf (w / 2) h (rows.map odds).flatten) = rows := by
  have heven : ∀ r ∈ rows.map evens, r.length = (w + 1) / 2 :=
    List.forall_mem_map.2 fun r h => by rw [evens_length, hr r h]
  have hodd : ∀ r ∈ rows.map odds, r.length = w / 2 := List.forall_mem_map.2 fun r h => by rw [odds_length, hr r h]
  rw [rowsOf_flatten ((List.length_map _).trans hh) heven, rowsOf_flatten ((List.length_map _).trans hh) hodd,
    List.zipWith_map, List.zipWith_self]
  simp only [interleave_evens_odds, List.map_id']

/-- R146: the four bands of an array put back together. -/
theorem interleaveRows_deinterleave {w h : Nat} {y : List (List Word)} (hh : y.length = h)
    (hr : ∀ r ∈ y, r.length = w) : interleaveRows w h (deinterleave y) = y := by
  have heven := zipWith_interleave_rowsOf (evens_length y) fun r h => hr r (mem_of_mem_evens y h)
  have hodd := zipWith_interleave_rowsOf (odds_length y) fun r h => hr r (mem_of_mem_odds y h)
  rw [hh] at heven hodd
  rw [interleaveRows, deinterleave, heven, hodd, interleave_evens_odds]

/-- A filter along the columns of `h` rows of `w`, and then its inverse. -/
theorem unfilter_columns_filter_columns {filter unfilter : List Word → List Word}
    (hinv : ∀ l, unfilter (filter l) = l) (hlen : ∀ l, (filter l).length = l.length) {w h : Nat}
    {rows : List (List Word)} (hh : rows.length = h) (hr : ∀ r ∈ rows, r.length = w) :
    columnsOf h ((columnsOf w (columnsOf h ((columnsOf w rows).map filter))).map unfilter) = rows := by
  have hcols : ∀ c ∈ (columnsOf w rows).map filter, c.length = h :=
    List.forall_mem_map.2 fun c hc => by rw [hlen, length_of_mem_columnsOf w hc, hh]
  have hundo : unfilter ∘ filter = id := funext hinv
  rw [columnsOf_columnsOf ((List.length_map _).trans (columnsOf_length w rows)) hcols, List.map_map, hundo, List.map_id,
    columnsOf_columnsOf hh hr]

/-- R154: the steps of FWD2 undone in the opposite order. -/
theorem inv2_fwd2 {w h : Nat} {x : List Word} (hx : x.length = w * h) : inv2 w h (fwd2 w h x) = x := by
  have hlen : ((rowsOf w h x).map f1d).length = h := (List.length_map _).trans (rowsOf_length w h x)
  have hrows : ∀ r ∈ (rowsOf w h x).map f1d, r.length = w :=
    List.forall_mem_map.2 fun r hr => by rw [f1d_length, length_of_mem_rowsOf hx r hr]
  obtain ⟨hylen, hyrows⟩ := columnsOf_columnsOf_lengths w h f1d ((rowsOf w h x).map f1d)
  have hundo : i1d ∘ f1d = id := funext i1d_f1d
  rw [inv2, fwd2, interleaveRows_deinterleave hylen hyrows,
    unfilter_columns_filter_columns i1d_f1d f1d_length hlen hrows, List.map_map, hundo, List.map_id, flatten_rowsOf hx]

/-- Settles O51: the inverse of each lifting step, along each axis of the array. -/
theorem perfectReconstruction : Obligations.PerfectReconstruction := by
  unfold Obligations.PerfectReconstruction
  exact ⟨i1d_f1d, fun w h x _ _ hx => inv2_fwd2 hx⟩

end Sys2Proof.Machine
end

section
/-! The wavelet commands (42_wavelet.md R141, R150, R153, R154): the checks in order, and the bands after one level. -/

namespace Sys2Proof.Machine

theorem mem_orients (o : Orient) : o ∈ orients := by cases o <;> decide

theorem nodup_orients : orients.Nodup := by decide

/-! ## The checks, and states that differ in the store -/

section

variable (s : State)

@[simp] theorem checkGeom_ok : (checkGeom s).ok = s.geom := rfl

@[simp] theorem checkRoom_ok_iff (need : Nat) : (checkRoom s need).ok = true ↔ s.used + need ≤ s.capBand :=
  decide_eq_true_iff

end

/-- R112: checks that bands of one level are allocated raise the same error, whichever band is not. -/
theorem firstFail_map_checkAlloc_append (s : State) (l : Nat) (os : List Orient) (rest : List Check) :
    firstFail (os.map (checkAlloc s l) ++ rest) =
      if ∀ o ∈ os, s.alloc l o = true then firstFail rest else some ⟨.notAllocated, l⟩ := by
  induction os with
  | nil => simp
  | cons o os ih =>
    rw [List.map_cons, List.cons_append, firstFail_cons, ih, checkAlloc_ok, checkAlloc_err]
    by_cases ho : s.alloc l o = true <;> simp [ho]

@[simp] theorem alloc_complete (s : State) (l : Nat) (o : Orient) : (complete s).alloc l o = s.alloc l o := rfl

@[simp] theorem coefs_complete (s : State) (l : Nat) (o : Orient) : (complete s).coefs l o = s.coefs l o := rfl

theorem StoreOnly.complete_eq {s t : State} (h : StoreOnly s t) :
    complete t = complete { s with bands := (complete t).bands, used := (complete t).used } := by
  obtain ⟨bands, used, rfl⟩ := h
  rfl

theorem StoreOnly.geometry_complete {s t : State} (h : StoreOnly s t) :
    (complete t).geom = s.geom ∧ (complete t).geomL = s.geomL ∧ (complete t).capBand = s.capBand := by
  obtain ⟨bands, used, rfl⟩ := h
  exact ⟨rfl, rfl, rfl⟩

theorem StoreOnly.bw_complete {s t : State} (h : StoreOnly s t) (l : Nat) (o : Orient) :
    (complete t).bw l o = s.bw l o := by
  obtain ⟨bands, used, rfl⟩ := h
  rfl

theorem StoreOnly.bh_complete {s t : State} (h : StoreOnly s t) (l : Nat) (o : Orient) :
    (complete t).bh l o = s.bh l o := by
  obtain ⟨bands, used, rfl⟩ := h
  rfl

/-! ## WT_INIT (R141) -/

theorem firstFail_wtInit (s : State) : firstFail (checksOf .wtInit s) =
    if 1 ≤ s.arg0.toNat then
      if 1 ≤ s.arg1.toNat then
        if s.arg0.toNat * s.arg1.toNat < 2 ^ 32 then
          if s.arg2.toNat ≤ 30 then none else some ⟨.badOperand, s.arg2.toNat⟩
        else some ⟨.badOperand, s.arg0.toNat⟩
      else some ⟨.badOperand, s.arg1.toNat⟩
    else some ⟨.badOperand, s.arg0.toNat⟩ := by
  simp only [checksOf, firstFail_cons, firstFail_nil, decide_eq_true_eq]
  rfl

/-- Settles O48: four checks, then a geometry record and an empty store. -/
theorem wtInitResult : Obligations.WtInitResult := by
  unfold Obligations.WtInitResult
  intro s
  have hchecks := firstFail_wtInit s
  refine ⟨fun hw => ?_, fun hw hh => ?_, fun hw hh harea => ?_, fun hw hh harea hn => ?_, fun hw hh harea hn => ?_⟩
  · exact exec_of_firstFail (by simp [hchecks, hw])
  · exact exec_of_firstFail (by simp [hchecks, hw, hh])
  · exact exec_of_firstFail (by rw [hchecks, if_pos hw, if_pos hh, if_neg (Nat.not_lt.2 harea)])
  · exact exec_of_firstFail (by rw [hchecks, if_pos hw, if_pos hh, if_pos harea, if_neg (Nat.not_le.2 hn)])
  · have hexec := exec_of_checks (i := .wtInit) rfl
      (by rw [hchecks, if_pos hw, if_pos hh, if_pos harea, if_pos hn])
    refine ⟨_, hexec, ?_, fun l o => rfl⟩
    rw [effectOf, State.u2, u32, BitVec.ofNat_toNat]
    rfl

/-! ## Several bands of one level (R112 to R114) -/

section

variable (l : Nat) (content : Orient → List Word) (os : List Orient)

/-- Storing the bands of one level, in the order given. -/
abbrev storeLevel (s : State) : State := os.foldl (fun t o => storeBand l o (content o) t) s

/-- Freeing the bands of one level, in the order given. -/
abbrev freeLevel (s : State) : State := os.foldl (fun t o => freeBand l o t) s

theorem alloc_storeLevel (s : State) (l' : Nat) (o' : Orient) :
    (storeLevel l content os s).alloc l' o' = (decide (l' = l ∧ o' ∈ os) || s.alloc l' o') := by
  induction os generalizing s with
  | nil => simp [storeLevel]
  | cons o os ih =>
    refine (ih _).trans ?_
    rw [alloc_storeBand]
    grind

theorem coefs_storeLevel (s : State) (l' : Nat) (o' : Orient) :
    (storeLevel l content os s).coefs l' o' = if l' = l ∧ o' ∈ os then content o' else s.coefs l' o' := by
  induction os generalizing s with
  | nil => simp [storeLevel]
  | cons o os ih =>
    refine (ih _).trans ?_
    rw [coefs_storeBand]
    grind

theorem used_storeLevel {os : List Orient} (hnodup : os.Nodup) (s : State) :
    (storeLevel l content os s).used = s.used + (os.map (s.needFor l)).sum := by
  induction os generalizing s with
  | nil => rfl
  | cons o os ih =>
    obtain ⟨hnew, hnodup⟩ := List.nodup_cons.1 hnodup
    have hneed : os.map ((storeBand l o (content o) s).needFor l) = os.map (s.needFor l) :=
      List.map_congr_left fun o' ho' => needFor_storeBand_of_ne (ne_of_mem_of_not_mem ho' hnew) _ s
    refine (ih hnodup _).trans ?_
    rw [used_storeBand, hneed, List.map_cons, List.sum_cons, Nat.add_assoc]

theorem bandSize_storeLevel (s : State) (l' : Nat) (o' : Orient) :
    (storeLevel l content os s).bandSize l' o' = s.bandSize l' o' := by
  induction os generalizing s with
  | nil => rfl
  | cons o os ih => exact ih _

theorem alloc_freeLevel (s : State) (l' : Nat) (o' : Orient) :
    (freeLevel l os s).alloc l' o' = (!decide (l' = l ∧ o' ∈ os) && s.alloc l' o') := by
  induction os generalizing s with
  | nil => simp [freeLevel]
  | cons o os ih =>
    refine (ih _).trans ?_
    rw [alloc_freeBand]
    grind

theorem coefs_freeLevel (s : State) (l' : Nat) (o' : Orient) :
    (freeLevel l os s).coefs l' o' = if l' = l ∧ o' ∈ os then [] else s.coefs l' o' := by
  induction os generalizing s with
  | nil => simp [freeLevel]
  | cons o os ih =>
    refine (ih _).trans ?_
    rw [coefs_freeBand]
    grind

theorem used_freeLevel {os : List Orient} (hnodup : os.Nodup) {s : State} (ha : ∀ o ∈ os, s.alloc l o = true) :
    (freeLevel l os s).used = s.used - (os.map (s.bandSize l)).sum := by
  induction os generalizing s with
  | nil => rfl
  | cons o os ih =>
    obtain ⟨hnew, hnodup⟩ := List.nodup_cons.1 hnodup
    obtain ⟨ho, ha⟩ := List.forall_mem_cons.1 ha
    have hrest : ∀ o' ∈ os, (freeBand l o s).alloc l o' = true := fun o' ho' => by
      simp [alloc_freeBand, ne_of_mem_of_not_mem ho' hnew, ha o' ho']
    refine (ih hnodup hrest).trans ?_
    rw [freeBand_used, if_pos ho, List.map_cons, List.sum_cons, ← Nat.sub_sub]
    rfl

end

/-! ## WT_FWD (R150) -/

/-- R150.5: only the destination bands that are not allocated need room. -/
theorem fwdNeed_eq_sum_filter (s : State) (l : Nat) : s.fwdNeed l =
    ((orients.filter fun o => !s.alloc (l + 1) o).map fun o => s.bw (l + 1) o * s.bh (l + 1) o).sum := by
  rw [fwdNeed_eq_sum]
  induction orients with
  | nil => rfl
  | cons o os ih =>
    rw [List.map_cons, List.sum_cons, ih, List.filter_cons, State.needFor]
    cases s.alloc (l + 1) o
    · rfl
    · exact Nat.zero_add _

section

variable (s : State) (l : Nat)

theorem fwdBand_eq (o : Orient) : s.fwdBand l o =
    if 0 < s.arg0.toNat ∧ (o ≠ .ll ∨ l + 1 = s.geomL.toNat)
      then quantBand s.arg0.toNat (l + 1) o ((s.fwdQuad l).get o)
    else (s.fwdQuad l).get o :=
  if_congr (by simp only [fwdQuantizes, Bool.and_eq_true, Bool.or_eq_true, decide_eq_true_eq]; rfl) rfl rfl

theorem alloc_forwardStep (l' : Nat) (o' : Orient) : (forwardStep l s).alloc l' o' =
    (!decide (l' = l ∧ o' = .ll) && (decide (l' = l + 1) || s.alloc l' o')) := by
  rw [forwardStep_eq_foldl, alloc_freeBand, alloc_storeLevel]
  simp [mem_orients]

theorem coefs_forwardStep (l' : Nat) (o' : Orient) : (forwardStep l s).coefs l' o' =
    if l' = l ∧ o' = .ll then [] else if l' = l + 1 then s.fwdBand l o' else s.coefs l' o' := by
  rw [forwardStep_eq_foldl, coefs_freeBand, coefs_storeLevel]
  simp [mem_orients]

theorem used_forwardStep (ha : s.alloc l .ll = true) :
    (forwardStep l s).used = s.used + s.fwdNeed l - s.bandSize l .ll := by
  have hstored : (storeLevel (l + 1) (s.fwdBand l) orients s).alloc l .ll = true := by simp [alloc_storeLevel, ha]
  rw [forwardStep_eq_foldl, freeBand_used, if_pos hstored, used_storeLevel _ _ nodup_orients, fwdNeed_eq_sum,
    bandSize_storeLevel]

end

theorem firstFail_wtFwd (s : State) (l : Nat) : firstFail (checksOf (.wtFwd l) s) =
    if s.geom = true then
      if l < s.geomL.toNat then
        if s.arg0.toNat ≤ 31 then
          if s.alloc l .ll = true then
            if s.used + s.fwdNeed l ≤ s.capBand then none else some ⟨.insufficientMemory, s.fwdNeed l⟩
          else some ⟨.notAllocated, l⟩
        else some ⟨.badOperand, s.arg0.toNat⟩
      else some ⟨.badOperand, l⟩
    else some ⟨.notInitialised, 0⟩ := by
  simp only [checksOf, firstFail_cons, firstFail_nil, decide_eq_true_eq, checkGeom_ok, checkQ_ok_iff, checkAlloc_ok,
    checkRoom_ok_iff]
  rfl

/-- R150: WT_FWD completes when its checks hold. -/
theorem exec_wtFwd {s : State} {l : Nat} (hg : s.geom = true) (hl : l < s.geomL.toNat) (hq : s.arg0.toNat ≤ 31)
    (ha : s.alloc l .ll = true) (hroom : s.used + s.fwdNeed l ≤ s.capBand) :
    exec (.wtFwd l) s = .next (complete (forwardStep l s)) :=
  exec_of_checks rfl (by rw [firstFail_wtFwd, if_pos hg, if_pos hl, if_pos hq, if_pos ha, if_pos hroom])

/-- Settles O52: five checks, then the four bands of level l + 1 stored and band (l, LL) freed. -/
theorem wtFwdResult : Obligations.WtFwdResult := by
  unfold Obligations.WtFwdResult
  intro s l need quad
  have hneed : s.fwdNeed l = need := fwdNeed_eq_sum_filter s l
  have hchecks := firstFail_wtFwd s l
  rw [hneed] at hchecks
  refine ⟨fun hg => ?_, fun hg hl => ?_, fun hg hl hq => ?_, fun hg hl hq ha => ?_, fun hg hl hq ha hroom => ?_,
    fun hg hl hq ha hroom => ?_⟩
  · exact exec_of_firstFail (by simp [hchecks, hg])
  · exact exec_of_firstFail (by simp [hchecks, hg, hl])
  · exact exec_of_firstFail (by simp [hchecks, hg, hl, hq])
  · exact exec_of_firstFail (by simp [hchecks, hg, hl, hq, ha])
  · exact exec_of_firstFail (by simp [hchecks, hg, hl, hq, ha, hroom])
  · refine ⟨_, exec_wtFwd hg hl hq ha (hneed ▸ hroom), (forwardStep_storeOnly l s).complete_eq, fun o => ⟨?_, ?_⟩,
      ?_, hneed ▸ used_forwardStep s l ha, fun l' o' hl' ho' => ⟨?_, ?_⟩⟩
    · simp [alloc_forwardStep]
    · rw [coefs_complete, coefs_forwardStep, if_neg (by simp), if_pos rfl]
      exact fwdBand_eq s l o
    · simp [alloc_forwardStep]
    · simp [alloc_forwardStep, hl', ho']
    · simp [coefs_forwardStep, hl', ho']

/-! ## WT_INV (R153) -/

section

variable (s : State) (l : Nat)

theorem alloc_inverseStep (l' : Nat) (o' : Orient) : (inverseStep l s).alloc l' o' =
    (!decide (l' = l) && (decide (l' = l - 1 ∧ o' = .ll) || s.alloc l' o')) := by
  rw [inverseStep_eq_foldl, alloc_freeLevel, alloc_storeBand]
  simp [mem_orients]

theorem coefs_inverseStep (l' : Nat) (o' : Orient) : (inverseStep l s).coefs l' o' =
    if l' = l then [] else if l' = l - 1 ∧ o' = .ll then s.invBand l else s.coefs l' o' := by
  rw [inverseStep_eq_foldl, coefs_freeLevel, coefs_storeBand]
  simp [mem_orients]

theorem used_inverseStep (ha : ∀ o, s.alloc l o = true) : (inverseStep l s).used =
    (if s.alloc (l - 1) .ll then s.used else s.used + s.bandSize (l - 1) .ll) - (orients.map (s.bandSize l)).sum := by
  have hstored : ∀ o ∈ orients, (storeBand (l - 1) .ll (s.invBand l) s).alloc l o = true := fun o _ => by
    simp [alloc_storeBand, ha o]
  rw [inverseStep_eq_foldl, used_freeLevel _ nodup_orients hstored, storeBand_used]
  rfl

theorem firstFail_wtInv : firstFail (checksOf (.wtInv l) s) =
    if s.geom = true then
      if 1 ≤ l ∧ l ≤ s.geomL.toNat then
        if ∀ o ∈ orients, s.alloc l o = true then
          if s.alloc (l - 1) .ll = true ∨ s.used + s.bw (l - 1) .ll * s.bh (l - 1) .ll ≤ s.capBand then none
          else some ⟨.insufficientMemory, s.bw (l - 1) .ll * s.bh (l - 1) .ll⟩
        else some ⟨.notAllocated, l⟩
      else some ⟨.badOperand, l⟩
    else some ⟨.notInitialised, 0⟩ := by
  have hchecks : checksOf (.wtInv l) s = checkGeom s ::
      ⟨decide (1 ≤ l) && decide (l ≤ s.levels), ⟨.badOperand, l⟩⟩ ::
      (orients.map (checkAlloc s l) ++ [checkRoomFor s (l - 1) .ll]) := rfl
  simp only [hchecks, firstFail_cons, firstFail_nil, firstFail_map_checkAlloc_append,
    Bool.and_eq_true, decide_eq_true_eq, checkGeom_ok, checkRoomFor_ok_iff]
  rfl

end

/-- R153: WT_INV completes when its checks hold. -/
theorem exec_wtInv {s : State} {l : Nat} (hg : s.geom = true) (hl : 1 ≤ l ∧ l ≤ s.geomL.toNat)
    (ha : ∀ o, s.alloc l o = true)
    (hroom : s.alloc (l - 1) .ll = true ∨ s.used + s.bw (l - 1) .ll * s.bh (l - 1) .ll ≤ s.capBand) :
    exec (.wtInv l) s = .next (complete (inverseStep l s)) :=
  exec_of_checks rfl (by rw [firstFail_wtInv, if_pos hg, if_pos hl, if_pos fun o _ => ha o, if_pos hroom])

/-- Settles O53: the checks of R153, then band (l - 1, LL) stored and the four bands of level l freed. -/
theorem wtInvResult : Obligations.WtInvResult := by
  unfold Obligations.WtInvResult
  intro s l size
  have hchecks := firstFail_wtInv s l
  refine ⟨fun hg => ?_, fun hg hl => ?_, fun hg hpos hl ⟨o, ho⟩ => ?_, fun hg hpos hl ha hnew hroom => ?_,
    fun hg hpos hl ha hroom => ?_⟩
  · exact exec_of_firstFail (by simp [hchecks, hg])
  · exact exec_of_firstFail (by rw [hchecks, if_pos hg, if_neg hl])
  · have hmissing : ¬ ∀ o ∈ orients, s.alloc l o = true := fun ha =>
      Bool.false_ne_true (ho.symm.trans (ha o (mem_orients o)))
    exact exec_of_firstFail (by rw [hchecks, if_pos hg, if_pos ⟨hpos, hl⟩, if_neg hmissing])
  · have hfull : ¬ (s.alloc (l - 1) .ll = true ∨ s.used + size ≤ s.capBand) := by simp [hnew, hroom]
    exact exec_of_firstFail (by rw [hchecks, if_pos hg, if_pos ⟨hpos, hl⟩, if_pos fun o _ => ha o, if_neg hfull])
  · have hne : l - 1 ≠ l := by omega
    refine ⟨_, exec_wtInv hg ⟨hpos, hl⟩ ha hroom, (inverseStep_storeOnly l s).complete_eq, ?_, ?_, fun o => ?_,
      used_inverseStep s l ha, fun l' o' hl' ho' => ⟨?_, ?_⟩⟩
    · simp [alloc_inverseStep, hne]
    · rw [coefs_complete, coefs_inverseStep, if_neg hne, if_pos ⟨rfl, rfl⟩]
      rfl
    · simp [alloc_inverseStep]
    · simp [alloc_inverseStep, hl', ho']
    · simp [coefs_inverseStep, hl', ho']

/-! ## One level forward and back (R154) -/

/-- R113, R114: an allocated band is counted in `used`. -/
theorem bandSize_le_used {s : State} (hs : s.storeSound = true) {l : Nat} {o : Orient} (ha : s.alloc l o = true) :
    s.bandSize l o ≤ s.used := by
  have htotal := totalCoefs_dropBand_bandCell hs l o
  rw [needFor_of_alloc ha] at htotal
  omega

/-- R150: with quant = 0 nothing is quantized. -/
theorem fwdBand_of_quant_zero {s : State} (hq : s.arg0 = 0#32) (l : Nat) (o : Orient) :
    s.fwdBand l o = (s.fwdQuad l).get o := by
  rw [fwdBand_eq, if_neg (by simp [hq])]

/-- R154: the four bands of WT_FWD with quant = 0 are the ones whose INV2 is the source. -/
theorem invBand_forwardStep {s : State} (hs : s.storeSound = true) {l : Nat} (ha : s.alloc l .ll = true)
    (hq : s.arg0 = 0#32) : (complete (forwardStep l s)).invBand (l + 1) = s.coefs l .ll := by
  have hcoefs : ∀ o, (complete (forwardStep l s)).coefs (l + 1) o = (s.fwdQuad l).get o := fun o => by
    rw [coefs_complete, coefs_forwardStep, if_neg (by simp), if_pos rfl, fwdBand_of_quant_zero hq]
  have hquad : (complete (forwardStep l s)).levelQuad (l + 1) = s.fwdQuad l := by
    rw [State.levelQuad, hcoefs, hcoefs, hcoefs, hcoefs]
    rfl
  have hstore := forwardStep_storeOnly l s
  rw [State.invBand, hquad, Nat.add_sub_cancel, hstore.bw_complete, hstore.bh_complete, State.fwdQuad]
  exact inv2_fwd2 (coefs_length hs ha)

/-- Settles O54: WT_FWD frees the room that WT_INV needs for band (l, LL), and INV2 undoes FWD2. -/
theorem losslessLevel : Obligations.LosslessLevel := by
  unfold Obligations.LosslessLevel
  intro s l hs hg hl ha hq hroom
  have hfwd := exec_wtFwd hg hl (by simp [hq]) ha hroom
  have halloc : ∀ o, (complete (forwardStep l s)).alloc (l + 1) o = true := fun o => by
    simp [alloc_forwardStep]
  have hstore := forwardStep_storeOnly l s
  obtain ⟨hgeom, hgeomL, hcap⟩ := hstore.geometry_complete
  have hfree : (complete (forwardStep l s)).used + s.bw l .ll * s.bh l .ll ≤ s.capBand := by
    have hused : s.bw l .ll * s.bh l .ll ≤ s.used := bandSize_le_used hs ha
    rw [complete_used, used_forwardStep s l ha, State.bandSize]
    omega
  have hinv := exec_wtInv (l := l + 1) (hgeom.trans hg) ⟨Nat.succ_pos l, by rwa [hgeomL]⟩ halloc (.inr (by
    rwa [Nat.add_sub_cancel, hstore.bw_complete, hstore.bh_complete, hcap]))
  refine ⟨_, _, hfwd, hinv, ?_, ?_, fun o => ?_, ?_⟩
  · simp [alloc_inverseStep]
  · rw [coefs_complete, coefs_inverseStep, if_neg (by simp), if_pos ⟨rfl, rfl⟩, invBand_forwardStep hs ha hq]
  · simp [alloc_inverseStep]
  · rw [complete_err, (inverseStep_storeOnly _ _).keptByEffect.err, complete_err, hstore.keptByEffect.err]

end Sys2Proof.Machine
end

section
/-! MB_CLEAR, MB_PUT and MB_GET (43_mb_encoder.md R166, R167; 44_mb_decoder.md R196). -/

namespace Sys2Proof.Machine

/-- R167: room for one more value. -/
theorem firstFail_mbPut (s : State) : firstFail (checksOf .mbPut s) =
    if s.vpos < 16384 then none else some ⟨.mbOverflow, s.vpos⟩ :=
  if_congr decide_eq_true_iff rfl rfl

/-- R196: a decoded value not yet read. -/
theorem firstFail_mbGet (s : State) : firstFail (checksOf .mbGet s) =
    if s.vpos < s.vlim then none else some ⟨.mbUnderflow, s.vpos⟩ :=
  if_congr decide_eq_true_iff rfl rfl

/-- Settles O55: at most one check each, then one word written or read at vpos. -/
theorem mbClearPutGetResult : Obligations.MbClearPutGetResult := by
  unfold Obligations.MbClearPutGetResult
  intro s
  refine ⟨exec_of_checks rfl rfl, fun h => ?_, fun h => ?_, fun h => ?_, fun h => ?_⟩
  · have hexec : exec .mbPut s = .next (complete (effectOf .mbPut s)) :=
      exec_of_checks rfl (by rw [firstFail_mbPut, if_pos h])
    exact ⟨_, hexec, rfl, readWord_writeWord_same s.mbv s.vpos s.arg0, fun a => read_writeWord_of_ne s.mbv s.arg0⟩
  · exact exec_of_firstFail (by rw [firstFail_mbPut, if_neg (Nat.not_lt.2 h)])
  · exact exec_of_checks rfl (by rw [firstFail_mbGet, if_pos h])
  · exact exec_of_firstFail (by rw [firstFail_mbGet, if_neg (Nat.not_lt.2 h)])

end Sys2Proof.Machine
end

section
/-! The round trip MB_ENCODE then MB_DECODE (43_mb_encoder.md R191; 44_mb_decoder.md R212): the decoder reads the encoder's
payload, first as bit strings, then as what MB_ENCODE leaves in CB, WORDLEN and MBHDR. -/

namespace Sys2Proof.Machine

/-! ## The payload as a bit string -/

/-- R208: a coefficient with a value's magnitude and sign is stored as that value. -/
theorem coefWord_eq {c : Coef} {v : Word} (hmag : c.mag = absCoef v) (hneg : c.neg = decide (v.toInt < 0)) :
    c.word = v := by
  rw [Coef.word, hmag, hneg, wrap32, wrap32]
  rcases lt_or_ge v.toInt 0 with hv | hv
  · have habs : -(absCoef v : Int) = v.toInt := by simp only [absCoef, s32]; omega
    rw [if_pos (decide_eq_true hv), habs, BitVec.ofInt_toInt]
  · have habs : (absCoef v : Int) = v.toInt := by simp only [absCoef, s32]; omega
    rw [if_neg (by simpa using hv), habs, BitVec.ofInt_toInt]

theorem map_coefWord_eq {cs : List Coef} {vs : List Word}
    (h : cs.map (fun c => (c.mag, c.neg)) = vs.map fun v => (absCoef v, decide (v.toInt < 0))) :
    cs.map Coef.word = vs := by
  have hlen : cs.length = vs.length := by simpa using congrArg List.length h
  refine List.ext_getElem (by rwa [List.length_map]) fun i hi hi' => ?_
  rw [List.length_map] at hi
  have hget : (cs[i].mag, cs[i].neg) = (absCoef vs[i], decide (vs[i].toInt < 0)) := by
    simpa [hi, hi'] using congrArg (·[i]?) h
  obtain ⟨hmag, hneg⟩ := Prod.mk.inj hget
  rw [List.getElem_map]
  exact coefWord_eq hmag hneg

/-- R191: decoding the words of an encode gives the values encoded and their plane count. -/
theorem decodeValues_encodeValues (favorSpeed : Bool) {vs : List Word} (hpos : 1 ≤ vs.length)
    (hlen : vs.length ≤ 16384) :
    ∃ cs, decodeValues ⟨(encodeValues favorSpeed vs).cb, (encodeValues favorSpeed vs).cp⟩ vs.length =
      .ok (planeCount (maxMagnitude vs) % 32, cs) ∧ cs.map Coef.word = vs := by
  have haligned := encodeValues_cp_aligned favorSpeed vs
  have hcp : 32 * ((encodeValues favorSpeed vs).cp / 32) = (encodeValues favorSpeed vs).cp := by omega
  obtain ⟨-, hdecodes⟩ := decodeReadsOnlyPayload
  obtain ⟨hloaded, -⟩ := hdecodes (encodeValues favorSpeed vs).cb ((encodeValues favorSpeed vs).cp / 32)
    (planeCount (maxMagnitude vs)) (chosenForm favorSpeed vs) vs hpos hlen (one_le_planeCount _)
    (planeCount_le (maxMagnitude_le vs))
    (fun v hv => (absCoef_le_maxMagnitude hv).trans_lt (lt_two_pow_planeCount _))
    (fun b _ => chosenForm_fits favorSpeed vs b) (encodeValues_carries favorSpeed hlen)
  rw [hcp] at hloaded
  obtain ⟨cs, hcs, hvalues⟩ := hloaded (encodeValues_cp favorSpeed hlen).ge
  exact ⟨cs, hcs, map_coefWord_eq hvalues⟩

/-! ## The payload in CB (R186, R188, R197) -/

/-- R55: the bit string read back from an array of `n` words is the one stored, below the array's capacity. -/
theorem getBit_toBits_ofBits {n p : Nat} (a : BitString) (hp : p < 32 * n) :
    BitString.getBit (Memory.ofBits (4 * n) a).toBits p = BitString.getBit a p := by
  obtain ⟨hwf, -⟩ := (memory_sound_iff _ _).1 (sound_ofBits n a)
  rw [getBit_toBits hwf, getBit_ofBits a hp]

section

variable {s : State} (pad tileEnd : Bool)

/-- The state that a successful MB_ENCODE ends in. -/
abbrev State.encoded (s : State) (pad tileEnd : Bool) : State :=
  complete (encodeWrites pad tileEnd (encodeValues s.favorTaken (s.encodeInput pad)) s)

variable (hlo : 1 ≤ s.vpos) (hv : s.vpos ≤ 16384)

include hlo in
theorem one_le_encodeSize : 1 ≤ s.encodeSize pad := by
  cases pad with
  | false => exact hlo
  | true => simp [State.encodeSize, Config.mbCap]

include hv

/-- R89, R188: TILEEND does not touch the size in MBHDR. -/
theorem decodeSize_encoded : (s.encoded pad tileEnd).decodeSize = s.encodeSize pad := by
  have hsize := encodeSize_le pad hv
  have htile := tileEnd.toNat_le
  have hmbhdr : (s.encoded pad tileEnd).mbhdr.toNat = (s.encodeSize pad + tileEnd.toNat * 2 ^ 15) % 2 ^ 16 :=
    BitVec.toNat_ofNat _ _
  rw [State.decodeSize, hmbhdr]
  omega

/-- R190: a payload of MB_ENCODE fits CB, and its words fit WORDLEN. -/
theorem loadedWords_encoded : (s.encoded pad tileEnd).loadedWords ≤ 32768 ∧
    32 * (s.encoded pad tileEnd).loadedWords = (encodeValues s.favorTaken (s.encodeInput pad)).cp := by
  have hlen : (s.encodeInput pad).length ≤ 16384 := (encodeInput_length s pad).trans_le (encodeSize_le pad hv)
  have hcp := encodeValues_cp_le_size s.favorTaken hlen
  have haligned := encodeValues_cp_aligned s.favorTaken (s.encodeInput pad)
  have hwords : (s.encoded pad tileEnd).loadedWords =
      numberOfWords (encodeValues s.favorTaken (s.encodeInput pad)).cp % 2 ^ 16 := BitVec.toNat_ofNat _ _
  rw [hwords, numberOfWords_encodeValues_cp s.favorTaken hlen]
  constructor <;> omega

/-- MB_DECODE after MB_ENCODE decodes the payload of the encode. -/
theorem decodeValues_payload_encoded (bs : Nat) : decodeValues (s.encoded pad tileEnd).payload bs =
    decodeValues ⟨(encodeValues s.favorTaken (s.encodeInput pad)).cb,
      (encodeValues s.favorTaken (s.encodeInput pad)).cp⟩ bs := by
  obtain ⟨hfits, hlim⟩ := loadedWords_encoded pad tileEnd hv
  have hpayload : (s.encoded pad tileEnd).payload =
      ⟨(Memory.ofBits (4 * 32768) (encodeValues s.favorTaken (s.encodeInput pad)).cb).toBits,
        32 * (s.encoded pad tileEnd).loadedWords⟩ := rfl
  rw [hpayload, hlim]
  exact decodeValues_congr (fun p hp => getBit_toBits_ofBits _ (by omega)) bs

include hlo

/-- The operand checks of MB_DECODE hold of what MB_ENCODE left. -/
theorem firstFail_mbDecode_encoded : firstFail (checksOf .mbDecode (s.encoded pad tileEnd)) = none := by
  obtain ⟨hfits, -⟩ := loadedWords_encoded pad tileEnd hv
  have hpos := one_le_encodeSize pad hlo
  have hle := encodeSize_le pad hv
  simp [checksOf, decodeChecks, decodeSize_encoded pad tileEnd hv, Config.codeWords, Config.mbCap, hfits, hpos, hle]

end

/-! ## The commands (R191, R212) -/

/-- R208, R209: MB_DECODE of a payload that decodes. -/
theorem execMbDecode_completes {s : State} {field : Nat} {cs : List Coef}
    (hc : firstFail (checksOf .mbDecode s) = none) (hd : decodeValues s.payload s.decodeSize = .ok (field, cs)) :
    exec .mbDecode s = .next (complete (decodeWrites field cs s)) := by
  have hlate : lateError .mbDecode s = none := by simp only [lateError, hd]
  have heffect : effectOf .mbDecode s = decodeWrites field cs s := by simp only [effectOf, decodeEffect, hd]
  rw [exec_of_checks hlate hc, heffect]

theorem ofNat_five_mod (n : Nat) : BitVec.ofNat 5 (n % 32) = BitVec.ofNat 5 n := by
  apply BitVec.eq_of_toNat_eq
  simp

/-- Settles O60: MB_DECODE finds the encode's payload in CB, and the payload carries the values in the format that the
decoder reads. -/
theorem encodeDecodeRoundTrip : Obligations.EncodeDecodeRoundTrip := by
  unfold Obligations.EncodeDecodeRoundTrip
  intro s pad tileEnd hlo hv
  have hsize : (s.encodeInput pad).length = s.encodeSize pad := encodeInput_length s pad
  obtain ⟨cs, hdecode, hcs⟩ := decodeValues_encodeValues s.favorTaken
    (hsize.symm ▸ one_le_encodeSize pad hlo) (hsize.symm ▸ encodeSize_le pad hv)
  have hlen : cs.length = s.encodeSize pad := by rw [← hsize, ← hcs, List.length_map]
  have hpayload : decodeValues (s.encoded pad tileEnd).payload (s.encoded pad tileEnd).decodeSize =
      .ok (planeCount (maxMagnitude (s.encodeInput pad)) % 32, cs) := by
    rw [decodeSize_encoded pad tileEnd hv, decodeValues_payload_encoded pad tileEnd hv, ← hsize, hdecode]
  refine ⟨_, _, execMbEncode_completes hlo pad tileEnd,
    execMbDecode_completes (firstFail_mbDecode_encoded pad tileEnd hlo hv) hpayload, rfl, ofNat_five_mod _, hlen,
    fun i hi => ?_⟩
  have hback : ((s.paddedMbv pad).writeWords 0 (cs.map Coef.word)).readWord i = (s.paddedMbv pad).readWord i := by
    have hin : i < (s.encodeInput pad).length := hsize.symm ▸ hi
    have hstored := readWord_writeWords (s.paddedMbv pad) 0 hin
    rw [hcs, readWord_paddedMbv_eq_getD pad hi, List.getD_eq_getElem _ _ hin, ← hstored, Nat.zero_add]
  exact ⟨hback, fun hput => hback.trans ((readWord_paddedMbv pad hv hi).trans (if_pos hput))⟩

end Sys2Proof.Machine
end

section
/-! What a payload that does not decode raises (44_mb_decoder.md R199, R202 to R207, R210): two error codes and no other,
and the checks that a first plane can fail. -/

namespace Sys2Proof.Machine

/-! ## The errors of the stream (R199, R202, R203, R207) -/

/-- R210: if `r` is an error, it is one of the two errors of the stream. -/
def StreamErrorOnly {α : Type} (r : Except Err α) : Prop :=
  ∀ e, r = .error e → e.code = .formatCannotRead ∨ e.code = .missingData

namespace StreamErrorOnly

variable {α β : Type}

theorem ok (v : α) : StreamErrorOnly (.ok v) := nofun

theorem error {e : Err} (h : e.code = .formatCannotRead ∨ e.code = .missingData) :
    StreamErrorOnly (.error e : Except Err α) := by
  intro e' he
  cases he
  exact h

theorem bind {r : Except Err α} {f : α → Except Err β} (h : StreamErrorOnly r) (hf : ∀ v, StreamErrorOnly (f v)) :
    StreamErrorOnly (r.bind f) := by
  cases r with
  | error e => exact error (h e rfl)
  | ok v => exact hf v

theorem ite {c : Prop} [Decidable c] {a b : Except Err α} (ha : StreamErrorOnly a) (hb : StreamErrorOnly b) :
    StreamErrorOnly (if c then a else b) := by
  split
  · exact ha
  · exact hb

theorem rdHeader (y : Payload) (p : Nat) : StreamErrorOnly (y.rdHeader p) := ite (error (.inr rfl)) (ok _)

theorem rd (y : Payload) (lo hi p : Nat) : StreamErrorOnly (y.rd p lo hi) := ite (error (.inl rfl)) (rdHeader y p)

theorem rdVal {get : Nat → Except Err Bool} (h : ∀ p, StreamErrorOnly (get p)) (k : Nat) :
    ∀ p, StreamErrorOnly (rdVal get p k) := by
  induction k with
  | zero => exact fun p => ok _
  | succ k ih =>
    intro p
    rw [rdVal_succ]
    exact (h p).bind fun b => (ih (p + 1)).bind fun v => ok _

theorem walk {σ : Type} {step : PosStep σ} (hstep : ∀ e x, StreamErrorOnly (step e x)) (y : Payload) (r : RefRegion)
    (b : Nat) (cs : List Coef) : ∀ rp x, StreamErrorOnly (walk y r b step cs rp x) := by
  induction cs with
  | nil => exact fun rp x => ok _
  | cons e t ih =>
    intro rp x
    cases he : e.sig with
    | true =>
      rw [walk_cons_of_sig (h := he), refineCoef_eq]
      exact ((rd y _ _ _).bind fun bit => ok _).bind fun e' => (ih _ _).bind fun u => ok _
    | false =>
      rw [walk_cons_of_not (h := he)]
      exact (hstep e x).bind fun z => (ih _ _).bind fun u => ok _

theorem rlStep {get : Nat → Except Err Bool} (h : ∀ p, StreamErrorOnly (get p)) (b : Nat) (e : Coef) (x : RlPass) :
    StreamErrorOnly (rlStep get b e x) := by
  have hsymbol : StreamErrorOnly (rlSymbol get x) := by
    rw [rlSymbol_eq]
    exact (h x.c).bind fun bit => ite ((rdVal h _ _).bind fun cnt => ok _) (ok _)
  rw [rlStep_eq]
  exact (ite (ok _) hsymbol).bind fun x1 => ite (ok _) ((h x1.c).bind fun neg => ok _)

theorem nextSign {get : Nat → Except Err Bool} (h : ∀ p, StreamErrorOnly (get p)) (x : SignDec) :
    StreamErrorOnly (nextSign get x) := by
  by_cases hcount : 0 < x.count
  · rw [Machine.nextSign, if_pos hcount]
    exact ok _
  · cases hz : x.zpend with
    | true =>
      rw [Machine.nextSign, if_neg hcount, if_pos hz]
      exact ok _
    | false =>
      rw [nextSign_eq get x (by omega) hz]
      exact (h x.c).bind fun bit => ite (ok _) ((rdVal h _ _).bind fun n => ite (ok _) (ok _))

theorem literalSign (y : Payload) (g0 signLen sg : Nat) : StreamErrorOnly (literalSign y g0 signLen sg) := by
  rw [literalSign_eq]
  exact (rd y _ _ _).bind fun neg => ok _

theorem decodeLiteral {σ : Type} {sign : σ → Except Err (Bool × σ)} (hsign : ∀ x, StreamErrorOnly (sign x))
    (y : Payload) (b ns sls sigStart : Nat) (x : σ) (cs : List Coef) :
    StreamErrorOnly (decodeLiteral y b ns sls sigStart sign x cs) := by
  rw [decodeLiteral_eq]
  refine (walk (fun e z => ?_) _ _ _ _ _ _).bind fun u => ok _
  rw [literalStep_eq]
  exact (rd y _ _ _).bind fun bit => ite ((hsign z.2).bind fun w => ok _) (ok _)

theorem decodeSig (y : Payload) (b cp ns : Nat) (cs : List Coef) : StreamErrorOnly (decodeSig y b cp ns cs) := by
  have hlen := rdVal (rdHeader y) 15
  have hrl : StreamErrorOnly (decodeRlSig y b cp ns cs) := by
    rw [decodeRlSig_eq]
    exact (hlen _).bind fun codeLen => (walk (rlStep (rd y _ _) b) _ _ _ _ _ _).bind fun u =>
      ite (error (.inl rfl)) (ok _)
  have hrlSign (cp sls : Nat) : StreamErrorOnly (decodeRlSign y b cp ns sls cs) := by
    rw [decodeRlSign_eq]
    exact (hlen _).bind fun codeLen => decodeLiteral (nextSign (rd y _ _)) _ _ _ _ _ _ _
  have hliteralSign (cp sls : Nat) : StreamErrorOnly (decodeLiteralSign y b cp ns sls cs) := by
    rw [decodeLiteralSign_eq]
    exact (hlen _).bind fun signLen => decodeLiteral (literalSign y _ _) _ _ _ _ _ _ _
  rw [decodeSig_eq, decodeLiteralSig_eq]
  exact (rdHeader y cp).bind fun bit => ite hrl ((hlen _).bind fun sls =>
    ite (error (.inl rfl)) ((rdHeader y _).bind fun bit => ite (hrlSign _ _) (hliteralSign _ _)))

theorem decodePlanes (y : Payload) (n : Nat) : ∀ cp cs, StreamErrorOnly (decodePlanes y n cp cs) := by
  induction n with
  | zero => exact fun cp cs => ok _
  | succ n ih =>
    intro cp cs
    rw [decodePlanes_succ, decodePlane_eq]
    exact ((decodeSig y _ _ _ _).bind fun u => ite (error (.inr rfl)) (ok _)).bind fun u => ih _ _

theorem decodeValues (y : Payload) (bs : Nat) : StreamErrorOnly (decodeValues y bs) := by
  rw [decodeValues_eq]
  exact (rdVal (rdHeader y) _ _).bind fun field => (decodePlanes y _ _ _).bind fun cs => ok _

end StreamErrorOnly

/-! ## Single reads (R199) -/

theorem rdHeader_of_lt {y : Payload} {p : Nat} (h : p < y.lim) : y.rdHeader p = .ok (BitString.getBit y.bits p) :=
  if_neg (Nat.not_le.2 h)

theorem rd_of_inside {y : Payload} {p lo hi : Nat} (hlo : lo ≤ p) (hhi : p < hi) : y.rd p lo hi = y.rdHeader p :=
  if_neg (by omega)

/-- A region of no bits: every read of it is outside. -/
theorem rd_of_no_region (y : Payload) (p lo : Nat) : y.rd p lo lo = .error ⟨.formatCannotRead, p⟩ :=
  if_pos (by omega)

/-- A header field inside the loaded words is the field that CB holds there. -/
theorem rdVal_rdHeader {y : Payload} (k : Nat) : ∀ {p : Nat}, p + k ≤ y.lim →
    rdVal y.rdHeader p k = .ok (getVal (BitString.getBit y.bits) p k) := by
  induction k with
  | zero => exact fun _ => rfl
  | succ k ih =>
    intro p h
    rw [rdVal_succ, rdHeader_of_lt (by omega), getVal]
    simp only [Except.bind, ih (p := p + 1) (by omega)]

theorem rdVal_lt {rd : Nat → Except Err Bool} (k : Nat) : ∀ {p v : Nat}, rdVal rd p k = .ok v → v < 2 ^ k := by
  induction k with
  | zero =>
    intro p v h
    cases h
    exact Nat.one_pos
  | succ k ih =>
    intro p v h
    rw [rdVal_succ] at h
    cases hbit : rd p with
    | error e => rw [hbit] at h; cases h
    | ok bit =>
      cases hrest : rdVal rd (p + 1) k with
      | error e => rw [hbit, hrest] at h; cases h
      | ok w =>
        rw [hbit, hrest] at h
        cases h
        have hw := ih hrest
        have hb := bit.toNat_le
        rw [Nat.pow_succ]
        omega

/-- R200: the nPlanes field has five bits. -/
theorem decodeValues_field_lt {y : Payload} {bs field : Nat} {cs : List Coef}
    (h : decodeValues y bs = .ok (field, cs)) : field < 32 := by
  rw [decodeValues_eq] at h
  cases hfield : rdVal y.rdHeader 0 5 with
  | error e => rw [hfield] at h; cases h
  | ok f =>
    rw [hfield] at h
    simp only [Except.bind] at h
    split at h
    · cases h
    · cases h
      exact rdVal_lt 5 hfield

/-! ## A plane that its checks stop (R202, R203, R205) -/

section

variable {y : Payload} {b cp ns : Nat}

/-- R202: a code of no bits ends before its first symbol. -/
theorem decodeRlSig_of_no_code {e : Coef} (t : List Coef) (he : e.sig = false)
    (hlen : rdVal y.rdHeader (cp + 1) 15 = .ok 0) :
    decodeRlSig y b cp ns (e :: t) = .error ⟨.formatCannotRead, cp + 16⟩ := by
  have hstep : rlStep (fun p => y.rd p (cp + 16) (cp + 16 + 0)) b e ⟨cp + 16, 3, 0, false⟩ =
      .error ⟨.formatCannotRead, cp + 16⟩ := by
    rw [rlStep_eq, rlRefill, if_neg (by simp), rlSymbol_eq]
    simp only [Nat.add_zero, rd_of_no_region]
    rfl
  rw [decodeRlSig_eq, hlen]
  simp only [Except.bind, walk_cons_of_not (h := he), hstep]

/-- R202: a position inside a run of zeros stays as it is. -/
theorem rlStep_of_run (rd : Nat → Except Err Bool) (b : Nat) (e : Coef) {x x1 : RlPass} (hx : rlRefill rd x = .ok x1)
    (hrun : 0 < x1.rest) : rlStep rd b e x = .ok (e, { x1 with rest := x1.rest - 1 }) := by
  rw [rlStep_eq, hx]
  exact if_pos hrun

/-- R202: positions that a run of zeros covers leave the rest of the run. -/
theorem walk_of_run (y : Payload) (r : RefRegion) (rd : Nat → Except Err Bool) (b : Nat) (cs : List Coef) :
    ∀ (rp : Nat) (x : RlPass), (∀ e ∈ cs, e.sig = false) → cs.length ≤ x.rest →
      walk y r b (rlStep rd b) cs rp x = .ok (cs, { x with rest := x.rest - cs.length }) := by
  induction cs with
  | nil => exact fun rp x _ _ => rfl
  | cons e t ih =>
    intro rp x hcs hlen
    obtain ⟨he, ht⟩ := List.forall_mem_cons.1 hcs
    rw [List.length_cons] at hlen
    have hstep := rlStep_of_run rd b e (if_pos (.inl (by omega)) : rlRefill rd x = .ok x) (by omega)
    rw [walk_cons_of_not (h := he), hstep]
    simp only [Except.bind, ih rp { x with rest := x.rest - 1 } ht (by simp only; omega), List.length_cons]
    rw [Nat.sub_sub, Nat.add_comm 1]

/-- R202: a first run, of 8 zeros, over fewer positions. -/
theorem decodeRlSig_of_overshoot {codeLen : Nat} {cs : List Coef} (hlen : rdVal y.rdHeader (cp + 1) 15 = .ok codeLen)
    (hpos : 1 ≤ codeLen) (hbit : y.rdHeader (cp + 16) = .ok false) (hcs : ∀ e ∈ cs, e.sig = false) (hne : cs ≠ [])
    (hshort : cs.length < 8) : decodeRlSig y b cp ns cs = .error ⟨.formatCannotRead, cp⟩ := by
  have hrefill : rlRefill (fun p => y.rd p (cp + 16) (cp + 16 + codeLen)) ⟨cp + 16, 3, 0, false⟩ =
      .ok ⟨cp + 17, 4, 8, false⟩ := by
    rw [rlRefill, if_neg (by simp), rlSymbol_eq]
    simp only [rd_of_inside (le_refl _) (by omega : cp + 16 < cp + 16 + codeLen), hbit]
    rfl
  obtain ⟨e, t, rfl⟩ := List.exists_cons_of_ne_nil hne
  obtain ⟨he, ht⟩ := List.forall_mem_cons.1 hcs
  rw [List.length_cons] at hshort
  rw [decodeRlSig_eq, hlen]
  simp only [Except.bind, walk_cons_of_not (h := he), rlStep_of_run _ b e hrefill (by simp)]
  rw [walk_of_run _ _ _ _ _ _ _ ht (by simp only; omega)]
  exact if_pos (by simp only; omega)

theorem alignWordPos_alignWordPos (p : Nat) : alignWordPos (alignWordPos p) = alignWordPos p := by
  unfold alignWordPos
  omega

/-- R205: a sign list of no bits ends before the sign of the first position, which becomes significant. -/
theorem decodeLiteralSign_of_no_signs {sls : Nat} {e : Coef} (t : List Coef) (he : e.sig = false) (hpos : 1 ≤ sls)
    (hlen : rdVal y.rdHeader (cp + 1) 15 = .ok 0) (hbit : y.rdHeader (alignWordPos (cp + 16)) = .ok true) :
    decodeLiteralSign y b cp ns sls (e :: t) = .error ⟨.formatCannotRead, alignWordPos (cp + 16)⟩ := by
  rw [decodeLiteralSign_eq, hlen]
  simp only [Except.bind, alignWordPos_alignWordPos, decodeLiteral_eq, walk_cons_of_not (h := he), literalStep_eq,
    literalSign_eq, Nat.add_zero, rd_of_no_region, rd_of_inside (le_refl _) (Nat.lt_add_of_pos_right hpos), hbit, if_true]

end

/-! ## The first plane (R200 to R205) -/

/-- R200: the positions before the first plane. -/
abbrev freshCoefs (n : Nat) : List Coef := List.replicate n ⟨0, false, false⟩

theorem countInsignificant_freshCoefs (n : Nat) : countInsignificant (freshCoefs n) = n := by
  rw [countInsignificant, List.filter_replicate_of_pos rfl, List.length_replicate]

theorem freshCoefs_eq_cons {n : Nat} (h : 1 ≤ n) : freshCoefs n = ⟨0, false, false⟩ :: freshCoefs (n - 1) := by
  obtain ⟨m, rfl⟩ := Nat.exists_eq_add_of_le' h
  rfl

theorem planesOf_pos (field : Nat) : 1 ≤ planesOf field := by
  unfold planesOf
  split
  · exact Nat.succ_pos _
  · omega

/-- A payload whose first plane stops at an error, whichever plane the field names, decodes to that error. -/
theorem decodeValues_of_first_plane {y : Payload} {n : Nat} {e : Err} (hlim : 5 ≤ y.lim)
    (h : ∀ b, decodeSig y b 5 n (freshCoefs n) = .error e) : decodeValues y n = .error e := by
  rw [decodeValues_eq, rdVal_rdHeader 5 (by omega)]
  generalize getVal (BitString.getBit y.bits) 0 5 = field
  obtain ⟨b, hb⟩ := Nat.exists_eq_add_of_le' (planesOf_pos field)
  simp only [Except.bind, hb, decodePlanes_succ, decodePlane_eq, countInsignificant_freshCoefs, h b]

section

variable {y : Payload} {n : Nat} (hn : 1 ≤ n) (hlim : 65 ≤ y.lim)

include hlim

/-- R199: the 15-bit length after the selector of a first plane. -/
theorem rdVal_firstPlane_length : rdVal y.rdHeader 6 15 = .ok (getVal (BitString.getBit y.bits) 6 15) :=
  rdVal_rdHeader 15 (by omega)

/-- R201: a first plane whose Sig part, in the form that its selector names, stops at an error. -/
theorem decodeValues_of_selector {selector : Bool} {e : Err} (hsel : BitString.getBit y.bits 5 = selector)
    (h : ∀ b, (if selector then decodeRlSig y b 5 n (freshCoefs n) else decodeLiteralSig y b 5 n (freshCoefs n)) =
      .error e) : decodeValues y n = .error e := by
  refine decodeValues_of_first_plane (by omega) fun b => ?_
  rw [decodeSig_eq, rdHeader_of_lt (by omega), hsel]
  exact h b

theorem decodeValues_of_wrong_sigLen (hsel : BitString.getBit y.bits 5 = false)
    (hlen : getVal (BitString.getBit y.bits) 6 15 ≠ n) :
    decodeValues y n = .error ⟨.formatCannotRead, 6⟩ := by
  refine decodeValues_of_selector hlim hsel fun b => (if_neg Bool.false_ne_true).trans ?_
  rw [decodeLiteralSig_eq, rdVal_firstPlane_length hlim]
  simp only [Except.bind]
  exact if_pos hlen

include hn

theorem decodeValues_of_no_code (hsel : BitString.getBit y.bits 5 = true)
    (hlen : getVal (BitString.getBit y.bits) 6 15 = 0) :
    decodeValues y n = .error ⟨.formatCannotRead, 21⟩ := by
  refine decodeValues_of_selector hlim hsel fun b => (if_pos rfl).trans ?_
  rw [freshCoefs_eq_cons hn]
  exact decodeRlSig_of_no_code _ rfl ((rdVal_firstPlane_length hlim).trans (by rw [hlen]))

theorem decodeValues_of_overshoot (hsel : BitString.getBit y.bits 5 = true)
    (hlen : 1 ≤ getVal (BitString.getBit y.bits) 6 15) (hbit : BitString.getBit y.bits 21 = false) (hshort : n < 8) :
    decodeValues y n = .error ⟨.formatCannotRead, 5⟩ := by
  refine decodeValues_of_selector hlim hsel fun b => (if_pos rfl).trans ?_
  refine decodeRlSig_of_overshoot (rdVal_firstPlane_length hlim) hlen ?_ (fun e he => ?_) ?_ ?_
  · rw [rdHeader_of_lt (by omega), hbit]
  · rw [List.eq_of_mem_replicate he]
  · rw [freshCoefs_eq_cons hn]
    exact List.cons_ne_nil _ _
  · rwa [List.length_replicate]

theorem decodeValues_of_no_signs (hsel : BitString.getBit y.bits 5 = false)
    (hlen : getVal (BitString.getBit y.bits) 6 15 = n) (hsign : BitString.getBit y.bits 21 = false)
    (hsigns : getVal (BitString.getBit y.bits) 22 15 = 0) (hbit : BitString.getBit y.bits 64 = true) :
    decodeValues y n = .error ⟨.formatCannotRead, 64⟩ := by
  have hselector : y.rdHeader 21 = .ok false := by rw [rdHeader_of_lt (by omega), hsign]
  have hsignLen : rdVal y.rdHeader 22 15 = .ok 0 := by rw [rdVal_rdHeader 15 (by omega), hsigns]
  have hsig : y.rdHeader 64 = .ok true := by rw [rdHeader_of_lt (by omega), hbit]
  refine decodeValues_of_selector hlim hsel fun b => (if_neg Bool.false_ne_true).trans ?_
  rw [decodeLiteralSig_eq, rdVal_firstPlane_length hlim, hlen, freshCoefs_eq_cons hn]
  simp only [Except.bind, ne_eq, not_true_eq_false, if_false, hselector, Bool.false_eq_true]
  exact decodeLiteralSign_of_no_signs _ rfl hn hsignLen hsig

end

/-! ## The command (R197, R208 to R210) -/

/-- R197: WORDLEN is checked first, then the size in MBHDR. -/
theorem firstFail_mbDecode (s : State) : firstFail (checksOf .mbDecode s) =
    if s.wordlen.toNat ≤ 32768 then
      if 1 ≤ s.mbhdr.toNat % 2 ^ 15 ∧ s.mbhdr.toNat % 2 ^ 15 ≤ 16384 then none
      else some ⟨.badOperand, s.mbhdr.toNat % 2 ^ 15⟩
    else some ⟨.badOperand, s.wordlen.toNat⟩ := by
  simp only [checksOf, decodeChecks, firstFail_cons, firstFail_nil, decide_eq_true_eq, Bool.and_eq_true]
  rfl

/-- R210: MB_DECODE of a payload that does not decode. -/
theorem execMbDecode_raises {s : State} {e : Err} (hc : firstFail (checksOf .mbDecode s) = none)
    (hd : decodeValues s.payload s.decodeSize = .error e) :
    exec .mbDecode s = .next (raiseErr e (decodeAbandon s)) := by
  rw [exec_eq]
  simp only [commandResult, hc, lateError, hd, effectOf, decodeEffect]

/-- R208: the macroblock memory holds the decoded values from index 0 on. -/
theorem readWord_writeWords_coefs (m : Memory) {cs : List Coef} {i : Nat} {c : Coef} (h : cs[i]? = some c) :
    (m.writeWords 0 (cs.map Coef.word)).readWord i = c.word := by
  obtain ⟨hi, rfl⟩ := List.getElem?_eq_some_iff.1 h
  have hstored := readWord_writeWords m 0 (ws := cs.map Coef.word) (j := i) (by rwa [List.length_map])
  rwa [Nat.zero_add, List.getElem_map] at hstored

/-- Settles O58: two operand checks, then the decoder's answer is written or its stream error raised; on a first plane
each check is met at a known bit. -/
theorem mbDecodeResult : Obligations.MbDecodeResult := by
  unfold Obligations.MbDecodeResult
  intro s wl bs
  have hchecks (hwl : wl ≤ 32768) (hlo : 1 ≤ bs) (hhi : bs ≤ 16384) : firstFail (checksOf .mbDecode s) = none := by
    rw [firstFail_mbDecode, if_pos hwl, if_pos ⟨hlo, hhi⟩]
  refine ⟨fun hwl => ?_, fun hwl hbs => ?_, fun hwl hlo hhi field cs hd => ?_, fun hwl hlo hhi e hd => ?_,
    fun bits n k hn hk => ?_⟩
  · exact exec_of_firstFail (by rw [firstFail_mbDecode, if_neg (Nat.not_le.2 hwl)])
  · exact exec_of_firstFail (by rw [firstFail_mbDecode, if_pos hwl, if_neg (by omega)])
  · have hlen : cs.length = bs := decodeValues_length hd
    refine ⟨hlen, decodeValues_field_lt hd, _, execMbDecode_completes (hchecks hwl hlo hhi) hd, ?_,
      fun i c hc => ?_, fun a ha => read_writeWords_of_outside s.mbv ?_⟩
    · rw [← hlen]
      rfl
    · refine (readWord_writeWords_coefs s.mbv hc).trans ?_
      rw [Coef.word, wrap32, wrap32, ← apply_ite (BitVec.ofInt 32)]
    · rw [List.length_map]
      omega
  · refine ⟨StreamErrorOnly.decodeValues _ _ e hd, _, execMbDecode_raises (hchecks hwl hlo hhi) hd, ?_⟩
    simp only [raiseErr_mbv, raiseErr_sf, raiseErr_freeCtr, decodeAbandon]
  · exact ⟨decodeValues_noWords bits n, decodeValues_of_no_code (y := ⟨bits, k⟩) hn hk,
      decodeValues_of_overshoot (y := ⟨bits, k⟩) hn hk, decodeValues_of_wrong_sigLen (y := ⟨bits, k⟩) hk,
      decodeValues_of_no_signs (y := ⟨bits, k⟩) hn hk⟩

end Sys2Proof.Machine
end

section
/-! How a command fails (60_exceptions.md R221, R222, R224, R230): by a check of its own before any write, as an illegal
word, or as an MB_DECODE whose stream is bad. -/

namespace Sys2Proof.Machine

/-! ## The codes of the checks (R221, R230) -/

/-- R221: a check of a command raises a code that is listed for the command. The condition of the check plays no part, so
each command's checks evaluate to their codes. -/
theorem check_code_mem_errorCodes {i : Instr} {s : State} {c : Check} (hc : c ∈ checksOf i s) :
    c.err.code.code ∈ i.errorCodes := by
  have hall : (checksOf i s).all (fun d => decide (d.err.code.code ∈ i.errorCodes)) = true := by cases i <;> rfl
  exact of_decide_eq_true (List.all_eq_true.1 hall c hc)

/-- R230: the two errors of the stream are raised by no check. -/
theorem check_code_not_stream {i : Instr} {s : State} {c : Check} (hc : c ∈ checksOf i s) :
    c.err.code.code ≠ 0x02#8 ∧ c.err.code.code ≠ 0x03#8 := by
  have hall : (checksOf i s).all (fun d => decide (d.err.code.code ≠ 0x02#8 ∧ d.err.code.code ≠ 0x03#8)) = true := by
    cases i <;> rfl
  exact of_decide_eq_true (List.all_eq_true.1 hall c hc)

/-- R221: the values of ERRCODE for the two errors of the stream. -/
theorem code_of_stream {e : ErrCode} (h : e = .formatCannotRead ∨ e = .missingData) :
    e.code = 0x02#8 ∨ e.code = 0x03#8 := by
  rcases h with rfl | rfl
  · exact .inr rfl
  · exact .inl rfl

/-! ## The ways to fail (R224, R230) -/

/-- R210: only MB_DECODE fails after its checks, and its stream is then abandoned. -/
theorem lateError_eq_some {i : Instr} {s : State} {e : Err} (h : lateError i s = some e) :
    i = .mbDecode ∧ (e.code = .formatCannotRead ∨ e.code = .missingData) ∧ effectOf i s = decodeAbandon s := by
  cases i
  case mbDecode =>
    cases hd : decodeValues s.payload s.decodeSize with
    | ok r => simp [lateError, hd] at h
    | error e' =>
      have he : e' = e := by simpa [lateError, hd] using h
      subst he
      exact ⟨rfl, StreamErrorOnly.decodeValues _ _ e' hd, by simp [effectOf, decodeEffect, hd]⟩
  all_goals cases h

/-- A command that sets ERR raised the error of one of its checks, or is an MB_DECODE with a bad stream. -/
theorem commandResult_failed {i : Instr} {s : State} (hs : s.err = false) (ht : (commandResult i s).err = true) :
    (∃ c ∈ checksOf i s, commandResult i s = raiseErr c.err s) ∨
      ∃ e, i = .mbDecode ∧ (e.code = .formatCannotRead ∨ e.code = .missingData) ∧
        commandResult i s = raiseErr e (decodeAbandon s) := by
  cases hc : firstFail (checksOf i s) with
  | some e =>
    obtain ⟨c, hmem, -, rfl⟩ := firstFail_eq_some hc
    exact .inl ⟨c, hmem, commandResult_of_firstFail hc⟩
  | none =>
    cases hl : lateError i s with
    | some e =>
      obtain ⟨hi, hcode, heffect⟩ := lateError_eq_some hl
      exact .inr ⟨e, hi, hcode, by rw [commandResult, hc, hl, ← heffect]⟩
    | none =>
      have herr : (effectOf i s).err = true := by simpa only [commandResult_of_checks hc hl, complete_err] using ht
      exact absurd (herr.symm.trans ((effectOf_keptByEffect i s).err.trans hs)) (by decide)

/-- Everything a turn of the engine that sets ERR can be. -/
theorem engineStep_failed {s t : State} (hs : s.err = false) (h : engineStep s = .next t) (ht : t.err = true) :
    ((∀ i, decode s.cmd ≠ .ok i) ∧ t = illegalCommand s) ∨
      (∃ i c, decode s.cmd = .ok i ∧ c ∈ checksOf i s ∧ t = raiseErr c.err s) ∨
      ∃ e, decode s.cmd = .ok .mbDecode ∧ (e.code = .formatCannotRead ∨ e.code = .missingData) ∧
        t = raiseErr e (decodeAbandon s) := by
  rw [engineStep_eq, Host.Outcome.next.injEq] at h
  subst h
  cases hd : decode s.cmd with
  | error e => exact .inl ⟨nofun, rfl⟩
  | ok i =>
    rw [hd] at ht
    rcases commandResult_failed hs ht with ⟨c, hc, he⟩ | ⟨e, rfl, hcode, he⟩
    · exact .inr (.inl ⟨i, c, rfl, hc, he⟩)
    · exact .inr (.inr ⟨e, rfl, hcode, he⟩)

/-- Settles O15: an illegal word and a failing check raise their error over the state as it was; MB_DECODE's stream error
is raised over the abandoned macroblock. -/
theorem preciseErrors : Obligations.PreciseErrors := by
  unfold Obligations.PreciseErrors
  intro s t hs h ht
  rcases engineStep_failed hs h ht with ⟨-, rfl⟩ | ⟨i, c, -, hc, rfl⟩ | ⟨e, hd, hcode, rfl⟩
  · have hcode : (illegalCommand s).errcode = 0x10#8 := rfl
    exact .inl ⟨by simp [hcode], by simp [hcode], rfl⟩
  · obtain ⟨hmissing, hformat⟩ := check_code_not_stream hc
    exact .inl ⟨hmissing, hformat, rfl⟩
  · exact .inr ⟨code_of_stream hcode, hd, by simp only [raiseErr, complete, decodeAbandon]⟩

/-- A turn of the engine that sets ERR records CMD and a code listed for the command in CMD, or ILLEGAL_COMMAND with 0. -/
theorem engineStep_failed_records {s t : State} (hs : s.err = false) (h : engineStep s = .next t) (ht : t.err = true) :
    t.errcmd = s.cmd ∧ (∀ i, decode s.cmd = .ok i → t.errcode ∈ i.errorCodes) ∧
      ((∀ i, decode s.cmd ≠ .ok i) → t.errcode = 0x10#8 ∧ t.errarg = 0#32) := by
  rcases engineStep_failed hs h ht with ⟨hd, rfl⟩ | ⟨i, c, hd, hc, rfl⟩ | ⟨e, hd, hcode, rfl⟩
  · exact ⟨rfl, fun i hi => absurd hi (hd i), fun _ => ⟨rfl, rfl⟩⟩
  · refine ⟨rfl, fun j hj => ?_, fun hno => absurd hd (hno i)⟩
    cases hd.symm.trans hj
    exact check_code_mem_errorCodes hc
  · refine ⟨rfl, fun j hj => ?_, fun hno => absurd hd (hno _)⟩
    cases hd.symm.trans hj
    rcases hcode with hcode | hcode <;> simp [Instr.errorCodes, hcode, ErrCode.code]

/-- R230: a turn of the engine that sets ERR writes no result and no header register. -/
theorem engineStep_failed_keeps_results {s t : State} (hs : s.err = false) (h : engineStep s = .next t)
    (ht : t.err = true) :
    t.result0 = s.result0 ∧ t.result1 = s.result1 ∧ t.result2 = s.result2 ∧
      t.wordlen = s.wordlen ∧ t.mbhdr = s.mbhdr ∧ t.nplanes = s.nplanes := by
  rcases engineStep_failed hs h ht with ⟨-, rfl⟩ | ⟨i, c, -, -, rfl⟩ | ⟨e, -, -, rfl⟩
  · exact ⟨rfl, rfl, rfl, rfl, rfl, rfl⟩
  · exact ⟨rfl, rfl, rfl, rfl, rfl, rfl⟩
  · exact ⟨rfl, rfl, rfl, rfl, rfl, rfl⟩

/-- Settles O16: the record and the codes are the definitions of R222 and R221; the rest is by the ways to fail. -/
theorem errorRecording : Obligations.ErrorRecording := by
  unfold Obligations.ErrorRecording
  refine ⟨fun e s => rfl, rfl, rfl, rfl, rfl, rfl, rfl, rfl, rfl, rfl, fun s t hs h ht => ?_⟩
  obtain ⟨hcmd, hlisted, hillegal⟩ := engineStep_failed_records hs h ht
  exact ⟨hcmd, hlisted, hillegal, engineStep_failed_keeps_results hs h ht⟩

end Sys2Proof.Machine
end

section
/-! ERR and the error registers hold until the host acknowledges them or the engine is reset (60_exceptions.md R227). -/

namespace Sys2Proof.Machine

/-! ## Which register a write reaches (R21, R51, R52) -/

theorem eq_offsetOf_of_regAt {a : Nat} {r : Reg} (h : regAt a = some r) : a = (offsetOf r).toNat := by
  unfold regAt at h
  split at h <;> cases h <;> rfl

theorem eq_offsetOf_of_targetAt {a : BitVec 20} {r : Reg} (h : targetAt a.toNat = .reg r) : a = offsetOf r := by
  unfold targetAt at h
  split at h
  · cases hr : regAt a.toNat with
    | none => simp [hr] at h
    | some r' =>
      obtain rfl : r' = r := by simpa [hr] using h
      exact BitVec.eq_of_toNat_eq (eq_offsetOf_of_regAt hr)
  · split_ifs at h

/-- Everything a host write can do: write the register whose offset is its address, or change at most CB and HAZ. -/
theorem hostWrite_next_reg {width : Nat} {addr : BitVec 20} {v : Word} {s t : State}
    (h : hostWrite width addr v s = .next t) :
    (∃ r, width = 4 ∧ addr = offsetOf r ∧ t = writeReg v s r) ∨ ∃ cb haz, t = { s with cb := cb, haz := haz } := by
  unfold hostWrite at h
  split at h
  · next hlegal =>
    have hwidth : width = 4 := by
      simp only [accessLegal, Bool.and_eq_true, decide_eq_true_eq] at hlegal
      exact hlegal.1
    split at h
    · next r hr => cases h; exact .inl ⟨r, hwidth, eq_offsetOf_of_targetAt hr, rfl⟩
    · cases h; exact .inr ⟨_, _, rfl⟩
    · cases h
    · next i hi =>
      cases h
      rcases writeIfIdle_cases (fun u => { u with cb := u.cb.writeWords i [v] }) s with ⟨-, he⟩ | ⟨-, he⟩ <;> rw [he] <;>
        exact .inr ⟨_, _, rfl⟩
    · cases h
  · cases h

/-! ## The error state (R24 to R27, R227) -/

/-- `t` agrees with `s` on ERR and the error registers, and on whether a command is pending. -/
structure SameErrorState (s t : State) : Prop where
  err : t.err = s.err
  errcode : t.errcode = s.errcode
  errcmd : t.errcmd = s.errcmd
  errarg : t.errarg = s.errarg
  pending : t.pending = s.pending

theorem SameErrorState.refl (s : State) : SameErrorState s s := by constructor <;> rfl

theorem writeIfIdle_sameErrorState {f : State → State} {s : State} (hf : SameErrorState s (f s)) :
    SameErrorState s (writeIfIdle f s) := by
  rcases writeIfIdle_cases f s with ⟨-, he⟩ | ⟨-, he⟩ <;> rw [he]
  · constructor <;> rfl
  · exact hf

theorem writeStatus_sameErrorState {v : Word} (hv : v.getLsbD 2 = false) (s : State) :
    SameErrorState s (writeStatus v s) := by
  rw [writeStatus_eq, hv]
  exact { err := Bool.and_true _, errcode := rfl, errcmd := rfl, errarg := rfl, pending := rfl }

/-- While ERR = 1 a register write is a reset, an acknowledgement, or keeps the error state. -/
theorem writeReg_of_err (v : Word) {s : State} (r : Reg) (hs : s.err = true) :
    (r = .ctrl ∧ v.getLsbD 3 = true) ∨ (r = .status ∧ v.getLsbD 2 = true) ∨ SameErrorState s (writeReg v s r) := by
  cases r
  case ctrl =>
    rcases writeCtrl_cases v s with ⟨hv, -⟩ | ⟨-, -, he⟩ | ⟨-, -, he⟩
    · exact .inl ⟨rfl, hv⟩
    · rw [writeReg, he]
      exact .inr (.inr (by constructor <;> rfl))
    · rw [writeReg, he]
      exact .inr (.inr (by constructor <;> rfl))
  case status =>
    cases hv : v.getLsbD 2 with
    | true => exact .inr (.inl ⟨rfl, rfl⟩)
    | false => exact .inr (.inr (writeStatus_sameErrorState hv s))
  case cmd =>
    rw [writeReg, writeCmd_of_refused (.inr hs)]
    exact .inr (.inr (by constructor <;> rfl))
  case arg0 | arg1 | arg2 | wordlen | mbhdr =>
    rw [writeReg]
    refine .inr (.inr (writeIfIdle_sameErrorState ?_))
    constructor <;> rfl
  all_goals exact .inr (.inr (.refl s))

/-- R227: what ends an error: the platform's reset, the reset bit of CTRL, or the acknowledgement in STATUS. -/
def BusOp.EndsError (op : BusOp) : Prop :=
  op = .reset ∨ (∃ v, op = .write 4 0x004#20 v ∧ v.getLsbD 3 = true) ∨
    ∃ v, op = .write 4 0x008#20 v ∧ v.getLsbD 2 = true

/-- While ERR = 1 an event of the outside ends the error or keeps the error state. -/
theorem busEvent_of_err {op : BusOp} {s t : State} (hs : s.err = true) (h : busEvent op s = .next t) :
    op.EndsError ∨ SameErrorState s t := by
  cases op with
  | read width addr =>
    rcases hostRead_cases width addr s with hf | ⟨v, n, hr⟩
    · exact absurd (hf.symm.trans h) nofun
    · cases hr.symm.trans h
      exact .inr (by constructor <;> rfl)
  | write width addr v =>
    rcases hostWrite_next_reg h with ⟨r, rfl, rfl, rfl⟩ | ⟨cb, haz, rfl⟩
    · rcases writeReg_of_err v r hs with ⟨rfl, hv⟩ | ⟨rfl, hv⟩ | hsame
      · exact .inl (.inr (.inl ⟨v, rfl, hv⟩))
      · exact .inl (.inr (.inr ⟨v, rfl, hv⟩))
      · exact .inr hsame
    · exact .inr (by constructor <;> rfl)
  | reset => exact .inl (.inl rfl)

/-- While ERR = 1 and nothing is pending, a step keeps the error state or its event ends the error. -/
theorem step_of_err {s t : State} (hs : s.err = true) (hp : s.pending = false) (h : step s = .next t) :
    SameErrorState s t ∨ ∃ e rest, s.hostQ = e :: rest ∧ e.op.EndsError := by
  cases hq : s.hostQ with
  | nil =>
    cases (step_of_idle hp hq).symm.trans h
    exact .inl (.refl s)
  | cons e rest =>
    rw [step_of_hostTurn hq (.inl hp)] at h
    rcases busEvent_of_err (s := { s with hostQ := rest }) hs h with hends | hsame
    · exact .inr ⟨e, rest, rfl, hends⟩
    · exact .inl { hsame with }

/-- Settles O21: with nothing pending a step is an event of the outside, and only a reset or an acknowledgement writes the
error state. -/
theorem errorsSticky : Obligations.ErrorsSticky := by
  unfold Obligations.ErrorsSticky
  refine ⟨fun s s' hs hp h => ?_, fun s v _ hv => ?_⟩
  · rcases step_of_err hs hp h with k | hends
    · exact .inl ⟨k.err.trans hs, k.errcode, k.errcmd, k.errarg, k.pending.trans hp⟩
    · exact .inr hends
  · refine ⟨_, (hostWrite_reg .status v s).trans (congrArg _ (writeStatus_eq v s)), ?_⟩
    simp [hv]

end Sys2Proof.Machine
end

section
/-! The soft reset (70_reset_and_hazards.md R250, R251): the reset a CTRL write with bit 3 set makes, before or after the
pending command. -/

namespace Sys2Proof.Machine

theorem writeCtrl_of_softReset {v : Word} {s : State} (hv : v.getLsbD 3 = true) : writeCtrl v s = resetEngine s :=
  if_pos hv

/-- R251: the soft reset, whatever the other bits of the written value are. -/
theorem hostWrite_softReset {v : Word} (hv : v.getLsbD 3 = true) (s : State) :
    hostWrite 4 (offsetOf .ctrl) v s = .next (resetEngine s) :=
  (hostWrite_reg .ctrl v s).trans (congrArg _ (writeCtrl_of_softReset hv))

/-- What a reset keeps belongs to the host's side, but for the free-value counter (log 17). -/
theorem SameHostSide.resetEngine {s t : State} (h : SameHostSide s t) :
    resetEngine t = { resetEngine s with freeCtr := t.freeCtr } := by
  rw [Machine.resetEngine, h.capBand, h.hostQ, h.busData]
  rfl

/-- R251: the engine's turn writes nothing that a reset keeps, but for the free-value counter. -/
theorem resetEngine_of_engineStep {s u : State} (h : engineStep s = .next u) :
    resetEngine u = { resetEngine s with freeCtr := u.freeCtr } := by
  obtain ⟨t, ht, -, -, -, hside⟩ := engineStep_completes s
  cases ht.symm.trans h
  exact hside.resetEngine

/-- Settles O12: both resets are `resetEngine`, which clears all that the pending command could have written but the
free-value counter. -/
theorem softReset : Obligations.SoftReset := by
  unfold Obligations.SoftReset
  intro s v hv
  refine ⟨hostWrite_softReset hv s, fun t ht => ?_, fun u hu => ?_⟩
  · cases (hostWrite_softReset hv s).symm.trans ht
    exact ⟨rfl, rfl, rfl, rfl, rfl, rfl⟩
  · exact ⟨_, _, hostWrite_softReset hv s, hostWrite_softReset hv u, resetEngine_of_engineStep hu⟩

end Sys2Proof.Machine
end
